-- ==== Sys2Proof/Config.lean ====
section
/-! DEFINITION. What the manual fixes for every part, and the one order the manual leaves open. -/

namespace Sys2Proof

/-- Ticks of a moment in one second: the least tick that makes every time the manual names whole (log entry 3). -/
def Config.ticksPerSecond : Nat := 3000000

/-- Ticks in one bit time of the cue line, which runs at 1 Mbit/s (09). -/
def Config.bitTime : Nat := 3

/-- FREE VALUE (R88: "At a boundary at which one claim goes on air and another ends, either report may stand first").
The argument is the number of such boundaries met so far; true when the OFF stands first. It has no body: nothing can be
proved of its value (log entry 2). -/
opaque Config.offBeforeOnAir : Nat → Bool

end Sys2Proof
end

