-- ==== Sys2Proof/Word.lean ====
section
/-! DEFINITION. The plain words of the TS-6: bytes, frame numbers, moments and words of text. -/

namespace Sys2Proof

/-- One byte of the text port or of a cue-line packet; also a sequence number or an item number (0..255). -/
abbrev Byte := BitVec 8

/-- A frame number (00_scope 3.1). The machine keeps it below the number of frames in the day; a packet may carry
any 24-bit value (R170). -/
abbrev Frame := Nat

/-- A moment in time, counted in ticks of one third of a microsecond: at this tick a frame period, half of it, 7/8, 98/100
and 102/100 of it, and a bit time of the cue line are all whole numbers at both frame rates (log entry 3). -/
abbrev Moment := Nat

/-- A word of text: a run of characters other than the space (02, 2.2). -/
abbrev TextWord := List Byte

end Sys2Proof
end

