-- ==== Sys2Proof/Syntax.lean ====
section
/-! DEFINITION. The commands of the TS-6: one constructor of `Instr` for each row of spec/opcode_table.json, with the
operands the manual gives the event the row names. -/

namespace Sys2Proof

/-- The twelve strap pins as the part reads them at power-on: a pin left open reads 1 (11.4). -/
structure StrapPins where
  /-- ST3..ST0. -/
  station : BitVec 4
  /-- FR. -/
  rate    : Bool
  /-- RW. -/
  rows    : Bool
  /-- WD3..WD0. -/
  width   : BitVec 4
  /-- TS: 0 gives ANCHORED, 1 gives FOLLOWING. -/
  follow  : Bool
  /-- AT. -/
  auto    : Bool
  deriving DecidableEq, Repr

/-- Where a station's frame number comes from (01). -/
inductive TimeStatus where
  | anchored
  | following
  | drifting
  deriving DecidableEq, Repr

/-- A station's part in the floor (07). -/
inductive FloorState where
  | idle
  | bidding
  | live
  | yielding
  deriving DecidableEq, Repr

/-- Where a block's text comes from (2.4). -/
inductive Source where
  | live
  | script
  deriving DecidableEq, Repr

/-- The body of a CUE or a REVISE (11.1). -/
structure CueBody where
  seq       : Byte
  /-- Upper four bits of the span byte. -/
  low       : Nat
  /-- Lower four bits of the span byte. -/
  count     : Nat
  showAt    : Frame
  minOff    : Frame
  lingerOff : Frame
  gap       : Nat
  item      : Byte
  speaker   : Bool
  source    : Source
  /-- The text rows, as their characters. -/
  rows      : List (List Byte)
  deriving DecidableEq, Repr

/-- One claim listed in a STATE (11.1). -/
structure StateClaim where
  seq      : Byte
  low      : Nat
  count    : Nat
  showAt   : Frame
  minOff   : Frame
  offBound : Frame
  deriving DecidableEq, Repr

/-- The body of a STATE (11.1). -/
structure StateBody where
  status      : TimeStatus
  /-- The frame-rate byte as carried. -/
  rate        : Nat
  displayRows : Nat
  width       : Nat
  frame       : Frame
  floor       : FloorState
  holder      : Option Nat
  item        : Byte
  claims      : List StateClaim
  deriving DecidableEq, Repr

/-- A cue-line packet, less its envelope (11.1). -/
inductive Packet where
  | cut (seq : Byte) (off : Frame)
  | cue (body : CueBody)
  | revise (body : CueBody)
  | take (forced : Bool)
  | yield (successor : Option Nat)
  | item (boundary : Frame) (number : Byte)
  | state (body : StateBody)
  deriving DecidableEq, Repr

/-- The commands: the rows of spec/opcode_table.json in the table's order. An operand `t` is the moment of the event, an
operand `sender` the station number in the packet's envelope. -/
inductive Instr where
  /-- POWER_ON (R161): the straps read and the moment power is applied. -/
  | powerOn (pins : StrapPins) (t : Moment)
  /-- REFERENCE_PULSE (R4, R5). -/
  | referencePulse (t : Moment)
  /-- FLYWHEEL_EXPIRY (R6). -/
  | flywheelExpiry
  /-- GUARD_WINDOW_OPEN (R8). -/
  | guardWindowOpen
  /-- TIMECODE_VALUE (R9): the value the decoder completed. -/
  | timecodeValue (hours minutes seconds frames : Nat)
  /-- TIMECODE_LOST (R11). -/
  | timecodeLost
  /-- PEER_TIME_SILENCE_EXPIRY (R14). -/
  | peerTimeSilenceExpiry
  /-- CHARACTER (R18). -/
  | character (c : Byte)
  /-- DISCARDED_BYTE (R17): the byte, and whether it came with a framing error. -/
  | discardedByte (framingError : Bool) (b : Byte)
  /-- END_BLOCK (R25). -/
  | endBlock
  /-- SPEAKER (R26). -/
  | speaker
  /-- RETRACT (R34). -/
  | retract
  /-- SCRIPT_BEGIN (R38). -/
  | scriptBegin
  /-- SCRIPT_END (R40). -/
  | scriptEnd
  /-- LOOP_ON (R43). -/
  | loopOn
  /-- LOOP_OFF (R43). -/
  | loopOff
  /-- NEXT (R44). -/
  | next
  /-- TAKE (R116). -/
  | take
  /-- YIELD (R123). -/
  | yield
  /-- PARK (R124, R162). -/
  | park
  /-- UNPARK (R162). -/
  | unpark
  /-- HOLD (R132). -/
  | hold
  /-- RELEASE (R132). -/
  | release
  /-- STATUS (R167). -/
  | status
  /-- RESET (R163). -/
  | reset
  /-- PACE_INTRODUCER (R129). -/
  | paceIntroducer
  /-- PACE_TERMINATOR (R129). -/
  | paceTerminator
  /-- IDLE_CLOSE (R27). -/
  | idleClose
  /-- YIELD_DEADLINE (R121). -/
  | yieldDeadline
  /-- BID_WAIT_EXPIRY (R118). -/
  | bidWaitExpiry
  /-- PEER_SILENT (R157): the peer whose unheard count reached its limit. -/
  | peerSilent (peer : Nat)
  /-- STATE_DUE (R156). -/
  | stateDue
  /-- MISMATCH_COUNT_EXPIRY (R145). -/
  | mismatchCountExpiry
  /-- JOIN_WAIT_EXPIRY (R161). -/
  | joinWaitExpiry
  /-- RESET_COUNT_EXPIRY (R163). -/
  | resetCountExpiry
  /-- RESET_DRAINED (R163). -/
  | resetDrained
  /-- DEFERRED_PARK (R124). -/
  | deferredPark
  /-- ITEM_CONTACT_CLOSE (R135). -/
  | itemContactClose
  /-- LINE_IDLE (R148): the moment the twentieth quiet bit time ended. -/
  | lineIdle (t : Moment)
  /-- TRANSMISSION_START (R149): the moment at which a start is looked for. -/
  | transmissionStart (t : Moment)
  /-- PACKET_ECHO (R151): the packet in transmission has been read back whole. -/
  | packetEcho
  /-- READBACK_MISMATCH (R152). -/
  | readbackMismatch
  /-- WAITING_REQUEST_ENTRY (R154). -/
  | waitingRequestEntry
  /-- CUT_SHORT_PACKET (R143). -/
  | cutShortPacket
  /-- DISCARDED_PACKET (R144). -/
  | discardedPacket
  /-- CUE_PACKET (R90). -/
  | cuePacket (sender : Nat) (body : CueBody)
  /-- REVISE_PACKET (R93). -/
  | revisePacket (sender : Nat) (body : CueBody)
  /-- CUT_PACKET (R102). -/
  | cutPacket (sender : Nat) (seq : Byte) (off : Frame)
  /-- PLAIN_TAKE (R110). -/
  | plainTake (sender : Nat)
  /-- FORCED_TAKE (R113). -/
  | forcedTake (sender : Nat)
  /-- YIELD_PACKET (R112). -/
  | yieldPacket (sender : Nat) (successor : Option Nat)
  /-- ITEM_PACKET (R137). -/
  | itemPacket (sender : Nat) (boundary : Frame) (number : Byte)
  /-- STATE_PACKET (R100). -/
  | statePacket (sender : Nat) (body : StateBody)
  /-- REPORT_LINE_SENT (R165). -/
  | reportLineSent
  /-- LINE_BUSY (R148). -/
  | lineBusy
  deriving DecidableEq, Repr

end Sys2Proof
end

