-- ==== Sys2Proof/Machine/State.lean ====
section
/-! DEFINITION. Everything the manual lets a TS-6 station hold, block by block (00_scope 2.1), as plain data; the reasons a
step can stop; and the station right after reset. -/

namespace Sys2Proof.Machine

/-- The conditions that stop the station. It has none: the manual names no event at which a TS-6 stops taking commands, and
gives every row of the table an effect, so no command raises a fault (safe: nothing is claimed of a stopped station). -/
inductive Fault : Type
  deriving DecidableEq, Repr

/-- The commands without a meaning. -/
inductive Refusal where
  /-- Raised by `exec` alone, for a row of the table that has no meaning yet (safe); no row is left so. -/
  | notModelled (mnemonic : String)
  deriving DecidableEq, Repr

/-! ### Reference Unit (01) -/

/-- The Reference Unit's state (01, R16). -/
structure RefUnit where
  /-- Current frame n. -/
  n           : Frame
  /-- Reference instant. -/
  refInstant  : Moment
  /-- Whether the reference instant was itself set by a pulse (R4). -/
  setByPulse  : Bool
  /-- Good-pulse count, 0..8. -/
  goodPulses  : Nat
  /-- Pending timecode load. -/
  pendingLoad : Option Frame
  /-- Timecode silence count, 0..10. -/
  tcSilence   : Nat
  /-- Peer-time silence count, 0..3F. -/
  peerSilence : Nat
  /-- Whether a time source was taken since the previous boundary (R12). -/
  sourceSeen  : Bool
  /-- Time status. -/
  status      : TimeStatus
  /-- Whether the guard window is open (R8). -/
  guardOpen   : Bool
  deriving DecidableEq, Repr

/-! ### Text: blocks, Block Builder, Script Store (02, 03) -/

/-- The text of a block: its rows of placed words, the upper row first, and whether row 1 begins with the speaker prefix
(2.3, R22). An empty list of rows is no text. -/
structure Text where
  rows    : List (List TextWord)
  speaker : Bool
  deriving DecidableEq, Repr

/-- The reason recorded for a close (2.4). -/
inductive CloseCause where
  | full
  | sentence
  | finish
  | idle
  | speaker
  | item
  deriving DecidableEq, Repr

/-- A closed block (2.4). Its character count and speaker flag are read from its text. -/
structure Block where
  seq        : Byte
  text       : Text
  /-- First-word arrival frame a. -/
  arrival    : Frame
  closeFrame : Frame
  cause      : CloseCause
  item       : Byte
  source     : Source
  deriving DecidableEq, Repr

/-- The Block Builder's state (02, R37). -/
structure BlockBuilder where
  /-- Word in formation. -/
  word        : TextWord
  /-- Arrival frame of the word in formation; none while the word is empty. -/
  wordArrival : Option Frame
  /-- Placed words of the open block in the Compose Buffer. -/
  openText    : Text
  /-- First-word arrival frame a of the Compose Buffer; none while it is empty. -/
  arrival     : Option Frame
  speakerMark : Bool
  /-- Idle count, 0..200; 0 while stopped. -/
  idleCount   : Nat
  /-- Sequence counter. -/
  nextSeq     : Byte
  /-- Block Queue, the head first, at most 16. -/
  queue       : List Block
  deriving DecidableEq, Repr

/-- The Script Store's loading state (03). -/
inductive LoadState where
  | notLoading
  | loading
  | discarding
  deriving DecidableEq, Repr

/-- The Script Store's state (03, R47). -/
structure ScriptStore where
  load        : LoadState
  /-- Stored blocks, position 1 first, at most 64. -/
  stored      : List Text
  /-- Loading block. -/
  loadText    : Text
  /-- Loading word. -/
  loadWord    : TextWord
  loadMark    : Bool
  /-- Stored characters, 0..4,096. -/
  storedChars : Nat
  /-- Pointer, 1..65. -/
  pointer     : Nat
  loop        : Bool
  deriving DecidableEq, Repr

/-! ### Cue Timer, Claim List, Row Map (04, 05, 06) -/

/-- Pace state (04). -/
inductive Pace where
  | normal
  | catchUp
  deriving DecidableEq, Repr

/-- The Cue Timer's state (04, R69). -/
structure CueTimer where
  pace : Pace
  /-- A hold stands on the head block (R51). -/
  hold : Bool
  deriving DecidableEq, Repr

/-- The states of a claim (5.1). -/
inductive ClaimState where
  | planned
  | sending
  | claimed
  | onAir
  deriving DecidableEq, Repr

/-- A claim record (R70). Its character count and speaker flag are read from its text. -/
structure Claim where
  seq        : Byte
  low        : Nat
  count      : Nat
  showAt     : Frame
  minOff     : Frame
  lingerOff  : Frame
  gap        : Nat
  text       : Text
  source     : Source
  item       : Byte
  arrival    : Frame
  closeFrame : Frame
  cause      : CloseCause
  state      : ClaimState
  revision   : Option Text
  /-- The off frame of the queued CUT, once there is one. -/
  withdrawal : Option Frame
  emptied    : Bool
  deriving DecidableEq, Repr

/-- A cue as the Row Map holds it (6.1): the one value its entries on every row of its span share. The list of a display row is
read from the map by `rowEntries`. -/
structure Cue where
  owner     : Nat
  seq       : Byte
  showAt    : Frame
  minOff    : Frame
  lingerOff : Frame
  offBound  : Frame
  gap       : Nat
  low       : Nat
  count     : Nat
  deriving DecidableEq, Repr

/-! ### Floor Controller (07) -/

/-- The Floor Controller's state (07, R127). -/
structure Floor where
  state      : FloorState
  /-- Holder view. -/
  holder     : Option Nat
  /-- Pending successor. -/
  successor  : Option Nat
  /-- Yield count, 0..250. -/
  yieldCount : Nat
  yieldOwed  : Bool
  /-- Bid count, 0..280. -/
  bidCount   : Nat
  /-- Whether the bid count is running (R118). -/
  bidRunning : Bool
  /-- While BIDDING: whether the station's TAKE has been echoed (R112, R113). -/
  takeEchoed : Bool
  parkOwed   : Bool
  /-- The floor state or the holder view has changed in the act in progress (R125); clear between acts. -/
  reportDue  : Bool
  deriving DecidableEq, Repr

/-! ### Pacing Set and item boundaries (08) -/

/-- The twelve pacing parameters (8.1). -/
inductive Param where
  | r
  | dmin
  | dmax
  | dlin
  | g
  | pi
  | y
  | t
  | h
  | k
  | lmax
  | placement
  deriving DecidableEq, Repr

/-- One value for each of the twelve parameters. -/
structure Params (α : Type) where
  r         : α
  dmin      : α
  dmax      : α
  dlin      : α
  g         : α
  pi        : α
  y         : α
  t         : α
  h         : α
  k         : α
  lmax      : α
  placement : α
  deriving DecidableEq, Repr

/-- The Pacing Set (8.1, R134), and the open PACE command (R129). -/
structure PacingSet where
  active  : Params Nat
  pending : Params (Option Nat)
  holding : Bool
  /-- Characters of the open PACE command, in the order taken; none while no command is open. -/
  command : Option (List Byte)
  deriving DecidableEq, Repr

/-- The state of an ITEM packet of the station's own (8.6). -/
inductive OwnItem where
  | none
  | waiting
  | queued
  | sending
  deriving DecidableEq, Repr

/-- Item handling's state (8.6, R142). -/
structure ItemState where
  number       : Byte
  /-- Last taken boundary. -/
  lastBoundary : Option Frame
  own          : OwnItem
  deriving DecidableEq, Repr

/-! ### Line Interface (09) -/

/-- What a queued packet is for; its content is filled at its start (R151). -/
inductive PacketKind where
  | cut (seq : Byte) (off : Frame)
  | cue (seq : Byte)
  | revise (seq : Byte)
  | take (forced : Bool)
  | yield
  | item
  | state
  deriving DecidableEq, Repr

/-- How a queued packet stands to an entry into RESETTING (R159, R163). -/
inductive ResetMark where
  /-- Not concerned by one. -/
  | none
  /-- A CUT queued on that entry. -/
  | entryCut
  /-- In transmission when the queue was emptied: it completes, or is removed at its stop. -/
  | inFlight
  deriving DecidableEq, Repr

/-- The content of a packet in transmission, and for a CUE or REVISE the text it was read from. -/
structure Sent where
  packet : Packet
  text   : Text
  deriving DecidableEq, Repr

/-- A packet of the Transmit Queue (09). -/
structure QPacket where
  kind     : PacketKind
  /-- Attempt count, 0..16. -/
  attempts : Nat
  /-- Fallback mark. -/
  fallback : Bool
  /-- The content, while the packet is in transmission. -/
  sent     : Option Sent
  mark     : ResetMark
  deriving DecidableEq, Repr

/-- Presence of a station (R157). -/
inductive Presence where
  | unknown
  | present
  | silent
  deriving DecidableEq, Repr

/-- A Peer Table entry (R157). -/
structure Peer where
  presence : Presence
  /-- Boundaries since last heard, 0..3F. -/
  unheard  : Nat
  floor    : Option FloorState
  status   : Option TimeStatus
  deriving DecidableEq, Repr

/-- The Line Interface's state (09, R159). -/
structure LineUnit where
  /-- Line state: true for IDLE. -/
  idle       : Bool
  idlePoint  : Moment
  /-- Last sender heard. -/
  lastSender : Nat
  /-- Transmit Queue, in order of entry, at most 8. -/
  queue      : List QPacket
  /-- Waiting requests, in the order made. -/
  waiting    : List QPacket
  /-- STATE phase count, 0..F. -/
  phase      : Nat
  /-- Mismatch count, 0..3F. -/
  mismatch   : Nat
  /-- Peer Table: the entry of station p stands at place p - 1. -/
  peers      : List Peer
  /-- While a packet is on the pair: the boundaries passed since its reception began (R13). -/
  receiving  : Option Nat
  deriving DecidableEq, Repr

/-! ### Station and Report Unit (10) -/

/-- The station's mode (10.2). -/
inductive Mode where
  | joining
  | active
  | parked
  | resetting
  | mute
  deriving DecidableEq, Repr

/-- The station-level state (10). -/
structure StationUnit where
  mode           : Mode
  /-- Join count, 0..2F. -/
  joinCount      : Nat
  parkRemembered : Bool
  /-- Reset count, 0..2F. -/
  resetCount     : Nat
  deriving DecidableEq, Repr

/-- The eleven sticky flags, in the order of R168. -/
structure Flags where
  refLost        : Bool
  timeStep       : Bool
  textError      : Bool
  paramClamped   : Bool
  queueOverflow  : Bool
  staleDrop      : Bool
  mapFull        : Bool
  lineFault      : Bool
  configMismatch : Bool
  reportLost     : Bool
  scriptFull     : Bool
  deriving DecidableEq, Repr

/-- Reason of a DROPPED report (R166). -/
inductive DropReason where
  | overflow
  | stale
  | yield
  deriving DecidableEq, Repr

/-- The fields of a STATUS report (R167). -/
structure StatusFields where
  mode      : Mode
  floor     : FloorState
  holder    : Option Nat
  pace      : Pace
  time      : TimeStatus
  locked    : Bool
  n         : Frame
  blocks    : Nat
  packets   : Nat
  claims    : Nat
  notOnAir  : Nat
  /-- Entries on each display row, row 1 first. -/
  entries   : List Nat
  item      : Byte
  flags     : Flags
  deriving DecidableEq, Repr

/-- A report line, by its fields (R166). -/
inductive Report where
  | queued (seq : Byte) (count : Nat) (cause : CloseCause) (closeFrame : Frame)
  | claimed (seq : Byte) (low count : Nat) (showAt minOff lingerOff : Frame)
  | onAir (seq : Byte) (frame : Frame)
  | off (seq : Byte) (frame : Frame)
  | dropped (reason : DropReason) (seq : Option Byte)
  | revised (seq : Byte)
  | late (seq : Option Byte)
  | floor (state : FloorState) (holder : Option Nat)
  | takeLost
  | scriptEnd
  | busy
  | refused
  | status (fields : StatusFields)
  deriving DecidableEq, Repr

/-- The Report Unit's state (10). -/
structure ReportUnit where
  /-- Report queue, oldest first, at most 32; the line at its head is the one being sent. -/
  queue   : List Report
  flags   : Flags
  /-- The bytes of the line last sent whole on the text port. -/
  portOut : List Byte
  deriving DecidableEq, Repr

/-! ### The station -/

/-- A TS-6 station, and the commands waiting for it. -/
structure State where
  /-- Commands not yet taken, the next one first. -/
  pending : List Instr
  /-- The strap pins as read at power-on (R160). -/
  straps  : StrapPins
  ref     : RefUnit
  text    : BlockBuilder
  script  : ScriptStore
  timer   : CueTimer
  /-- Claim List, in claim order, at most 4 (R70). -/
  claims  : List Claim
  /-- Row Map, by cues, the earlier show first (R91). -/
  map     : List Cue
  floor   : Floor
  pacing  : PacingSet
  item    : ItemState
  line    : LineUnit
  station : StationUnit
  report  : ReportUnit
  /-- MODEL's own: how many times the open order of R88 has been met. -/
  openOrders : Nat
  deriving DecidableEq, Repr

/-! ### Updates of one unit -/

def State.modRef (s : State) (f : RefUnit → RefUnit) : State := { s with ref := f s.ref }
def State.modText (s : State) (f : BlockBuilder → BlockBuilder) : State := { s with text := f s.text }
def State.modScript (s : State) (f : ScriptStore → ScriptStore) : State := { s with script := f s.script }
def State.modTimer (s : State) (f : CueTimer → CueTimer) : State := { s with timer := f s.timer }
def State.setClaims (s : State) (l : List Claim) : State := { s with claims := l }
def State.setMap (s : State) (l : List Cue) : State := { s with map := l }
def State.modFloor (s : State) (f : Floor → Floor) : State := { s with floor := f s.floor }
def State.modPacing (s : State) (f : PacingSet → PacingSet) : State := { s with pacing := f s.pacing }
def State.modItem (s : State) (f : ItemState → ItemState) : State := { s with item := f s.item }
def State.modLine (s : State) (f : LineUnit → LineUnit) : State := { s with line := f s.line }
def State.modStation (s : State) (f : StationUnit → StationUnit) : State := { s with station := f s.station }
def State.modReport (s : State) (f : ReportUnit → ReportUnit) : State := { s with report := f s.report }

/-! ### Reset -/

/-- No sticky flag set (R168). -/
def Flags.clear : Flags where
  refLost := false
  timeStep := false
  textError := false
  paramClamped := false
  queueOverflow := false
  staleDrop := false
  mapFull := false
  lineFault := false
  configMismatch := false
  reportLost := false
  scriptFull := false

/-- The defaults of the parameter table (8.1, R134). -/
def Params.defaults : Params Nat where
  r := 140
  dmin := 40
  dmax := 150
  dlin := 250
  g := 2
  pi := 50
  y := 75
  t := 100
  h := 20
  k := 4
  lmax := 375
  placement := 0

/-- A pending set that holds nothing (R134). -/
def Params.nothing : Params (Option Nat) where
  r := none
  dmin := none
  dmax := none
  dlin := none
  g := none
  pi := none
  y := none
  t := none
  h := none
  k := none
  lmax := none
  placement := none

/-- No text. -/
def Text.empty : Text := { rows := [], speaker := false }

/-- A Peer Table entry at power-on (R159). -/
def Peer.unheardOf : Peer := { presence := .unknown, unheard := 0, floor := none, status := none }

/-- Every strap left open (11.4): station 16, 30 frames per second, 3 rows of 42 characters, FOLLOWING, auto-take on. -/
def allStrapsOpen : StrapPins where
  station := 15
  rate := true
  rows := true
  width := 15
  follow := true
  auto := true

/-- The station right after power-on (R16, R37, R47, R69, R89, R107, R127, R134, R142, R159, R161, R165, R168), with every
strap open and moments counted from power-on (log entry 1). -/
def State.reset : State where
  pending := []
  straps := allStrapsOpen
  ref := { n := 0, refInstant := 0, setByPulse := false, goodPulses := 0, pendingLoad := none, tcSilence := 10,
           peerSilence := 90, sourceSeen := false, status := .drifting, guardOpen := false }
  text := { word := [], wordArrival := none, openText := .empty, arrival := none, speakerMark := false, idleCount := 0,
            nextSeq := 0, queue := [] }
  script := { load := .notLoading, stored := [], loadText := .empty, loadWord := [], loadMark := false, storedChars := 0,
              pointer := 1, loop := false }
  timer := { pace := .normal, hold := false }
  claims := []
  map := []
  floor := { state := .idle, holder := none, successor := none, yieldCount := 0, yieldOwed := false, bidCount := 0,
             bidRunning := false, takeEchoed := false, parkOwed := false, reportDue := false }
  pacing := { active := .defaults, pending := .nothing, holding := false, command := none }
  item := { number := 0, lastBoundary := none, own := .none }
  line := { idle := false, idlePoint := 0, lastSender := 16, queue := [], waiting := [], phase := 0, mismatch := 0,
            peers := List.replicate 15 Peer.unheardOf ++
              [{ presence := .present, unheard := 0, floor := none, status := none }],
            receiving := none }
  station := { mode := .joining, joinCount := 0, parkRemembered := false, resetCount := 0 }
  report := { queue := [], flags := .clear, portOut := [] }
  openOrders := 0

end Sys2Proof.Machine
end

