-- ==== Sys2Proof/Machine/Operands.lean ====
section
/-! DEFINITION. What a command's operands and the straps mean: strap decoding (R160), frame arithmetic (R2), sorts of bytes (R17),
and the measures of text (2.3). -/

namespace Sys2Proof.Machine

/-! ### Straps (R160, 11.4) -/

/-- Station number: the binary value of the pins plus 1. -/
def StrapPins.number (p : StrapPins) : Nat := p.station.toNat + 1

/-- Frame rate F. -/
def StrapPins.fps (p : StrapPins) : Nat := if p.rate then 30 else 25

/-- Number of display rows R. -/
def StrapPins.displayRows (p : StrapPins) : Nat := if p.rows then 3 else 2

/-- Row width W: codes 11..15 give 42. -/
def StrapPins.rowWidth (p : StrapPins) : Nat := 32 + min p.width.toNat 10

/-- The station's own number, 1..16. -/
def State.own (s : State) : Nat := StrapPins.number s.straps

/-- F, frames per second. -/
def State.fps (s : State) : Nat := StrapPins.fps s.straps

/-- D, frames in the timecode day (R1). -/
def State.day (s : State) : Nat := 86400 * s.fps

/-- R, the number of display rows. -/
def State.displayRows (s : State) : Nat := StrapPins.displayRows s.straps

/-- W, the row width. -/
def State.rowWidth (s : State) : Nat := StrapPins.rowWidth s.straps

/-- Whether the time-source strap reads ANCHORED. -/
def State.anchoredStrap (s : State) : Bool := !s.straps.follow

/-- P, the nominal frame period, in ticks. -/
def State.period (s : State) : Moment := Config.ticksPerSecond / s.fps

/-- The current frame n. -/
def State.n (s : State) : Frame := s.ref.n

/-! ### Frame arithmetic (00_scope 3.1, R2) -/

/-- A frame number and a count of frames, summed modulo D. -/
def addFrames (day a k : Nat) : Frame := (a + k) % day

/-- A frame number less a count of at most D frames, modulo D. -/
def subFrames (day a k : Nat) : Frame := (a + (day - k)) % day

/-- The distance from frame `a` to frame `b` (R2). -/
def frameDist (day a b : Nat) : Int :=
  let rem : Int := ((b : Int) - (a : Int)) % (day : Int)
  if (day : Int) ≤ 2 * rem then rem - day else rem

/-- Frame `b` is after frame `a`. -/
def isAfter (day a b : Nat) : Bool := decide (0 < frameDist day a b)

/-- Frame `p` is at or before frame `q`. -/
def atOrBefore (day p q : Nat) : Bool := decide (0 ≤ frameDist day p q)

/-- The later of two frames. -/
def laterOf (day a b : Nat) : Frame := if isAfter day a b then b else a

/-- The earlier of two frames. -/
def earlierOf (day a b : Nat) : Frame := if isAfter day a b then a else b

/-- The distance from `a` to `b` at the station's frame rate. -/
def State.dist (s : State) (a b : Frame) : Int := frameDist s.day a b

/-- `k` frames after `a` at the station's frame rate. -/
def State.plus (s : State) (a : Frame) (k : Nat) : Frame := addFrames s.day a k

/-! ### Bytes of the text port (R17) -/

/-- The space, 0x20. -/
def spaceByte : Byte := 0x20

/-- A character: a byte in 0x20..0x7E. -/
def isCharacter (b : Byte) : Bool := decide (0x20 ≤ b.toNat) && decide (b.toNat ≤ 0x7E)

/-- A control code: a byte in 0x00..0x1F, or 0x7F. -/
def isControl (b : Byte) : Bool := decide (b.toNat < 0x20) || decide (b.toNat = 0x7F)

/-- A sentence end: a word whose last character is a full stop, a question mark or an exclamation mark (R24). -/
def isSentenceEnd (w : TextWord) : Bool :=
  match w.getLast? with
  | some b => b == 0x2E || b == 0x3F || b == 0x21
  | none => false

/-! ### Rows of text (2.3) -/

/-- The text of a row's words: the words joined by single spaces. -/
def joinWords : List TextWord → List Byte
  | [] => []
  | [w] => w
  | w :: ws => w ++ spaceByte :: joinWords ws

/-- The speaker prefix, a hyphen and a space (R22). -/
def speakerPrefix : List Byte := [0x2D, 0x20]

/-- The text rows, the upper one first; row 1 begins with the speaker prefix when the text carries it. -/
def Text.lines (t : Text) : List (List Byte) :=
  match t.rows with
  | [] => []
  | r :: rs => (if t.speaker then speakerPrefix ++ joinWords r else joinWords r) :: rs.map joinWords

/-- The character count c: the sum of the lengths of the rows (00_scope 3.4). -/
def Text.count (t : Text) : Nat := (t.lines.map List.length).sum

/-- The length of the last row. -/
def Text.lastLength (t : Text) : Nat :=
  match t.lines.getLast? with
  | some l => l.length
  | none => 0

/-- Some word is placed. A speaker prefix standing alone is no word (3.1, R34). -/
def Text.hasWord (t : Text) : Bool := t.rows.any fun r => !r.isEmpty

/-- A word opens a block (R21, R22): beside the prefix it goes to row 2 when it does not fit row 1. -/
def Text.opened (width : Nat) (mark : Bool) (w : TextWord) : Text :=
  if mark then
    if 2 + w.length ≤ width then { rows := [[w]], speaker := true } else { rows := [[], [w]], speaker := true }
  else { rows := [[w]], speaker := false }

/-- How a word finds its place in a block that holds a row (R21). -/
inductive Fit where
  /-- It joins the current row. -/
  | joins
  /-- It opens row 2. -/
  | opensRow2
  /-- Neither: the block is full for it. -/
  | full
  deriving DecidableEq, Repr

/-- The test of R21 for a block that holds a row. -/
def Text.fit (width : Nat) (t : Text) (w : TextWord) : Fit :=
  if t.lastLength + 1 + w.length ≤ width then .joins
  else if t.rows.length < 2 then .opensRow2
  else .full

/-- The word at the end of the last row. -/
def joinLastRow (w : TextWord) : List (List TextWord) → List (List TextWord)
  | [] => [[w]]
  | [r] => [r ++ [w]]
  | r :: rs => r :: joinLastRow w rs

/-- The text with the word joined to its last row. -/
def Text.joined (t : Text) (w : TextWord) : Text := { t with rows := joinLastRow w t.rows }

/-- The text with the word as the first of a new row. -/
def Text.withRow (t : Text) (w : TextWord) : Text := { t with rows := t.rows ++ [[w]] }

/-- The rows less their last word: a row 2 left with no word goes with it (R34). -/
def dropLastWord : List (List TextWord) → List (List TextWord)
  | [] => []
  | [r] => [r.dropLast]
  | r :: rs =>
    match dropLastWord rs with
    | [[]] => [r]
    | rs' => r :: rs'

/-- The text less its last word; a text left with no word is empty, and its prefix goes with the word (R34, R35, R85). -/
def Text.retracted (t : Text) : Text :=
  let t' : Text := { t with rows := dropLastWord t.rows }
  if t'.hasWord then t' else .empty

end Sys2Proof.Machine
end

