-- ==== Sys2Proof/Machine/Envelope.lean ====
section
/-! DEFINITION. Cue-line packets as bytes (11.1): the CRC (R170), the layout of each body, the envelope checks (R144) and the reading
of a body (R171, R172). -/

namespace Sys2Proof.Machine

/-! ### Field ranges and lengths (R144, R171, R172) -/

/-- A sender or successor byte names a station. -/
def isStation (k : Nat) : Bool := decide (1 ≤ k) && decide (k ≤ 16)

/-- A frame field takes 3 bytes. -/
def isFrameField (k : Nat) : Bool := decide (k < 16777216)

/-- The checks of a row span: a row count of 1 or 2, a low row that four bits hold (R144, R171). -/
def spanValid (low count : Nat) : Bool := decide (low < 16) && decide (1 ≤ count) && decide (count ≤ 2)

/-- A text row of 1..42 characters (R171). -/
def rowValid (r : List Byte) : Bool := decide (1 ≤ r.length) && decide (r.length ≤ 42)

/-- A CUE or REVISE body that passes the envelope checks (R144, R171). -/
def CueBody.valid (b : CueBody) : Bool :=
  spanValid b.low b.count && isFrameField b.showAt && isFrameField b.minOff && isFrameField b.lingerOff &&
  decide (b.gap ≤ 3) && decide (b.rows.length = b.count) && b.rows.all rowValid

/-- A STATE claim that passes them. -/
def StateClaim.valid (c : StateClaim) : Bool :=
  spanValid c.low c.count && isFrameField c.showAt && isFrameField c.minOff && isFrameField c.offBound

/-- A holder field: a station or none (R172). -/
def holderValid : Option Nat → Bool
  | some k => isStation k
  | none => true

/-- A STATE body that passes them (R144, R172). -/
def StateBody.valid (b : StateBody) : Bool :=
  decide (b.rate < 256) && decide (b.displayRows < 256) && decide (b.width < 256) && isFrameField b.frame &&
  holderValid b.holder && decide (b.claims.length ≤ 4) && b.claims.all StateClaim.valid

/-- A packet body that passes the envelope checks of R144. -/
def Packet.valid : Packet → Bool
  | .cut _ off => isFrameField off
  | .cue b => CueBody.valid b
  | .revise b => CueBody.valid b
  | .take _ => true
  | .yield q => holderValid q
  | .item b _ => isFrameField b
  | .state b => StateBody.valid b

/-- A valid packet (R144): its sender names a station and its body passes the checks. -/
def packetValid (sender : Nat) (p : Packet) : Bool := isStation sender && Packet.valid p

/-! ### The CRC (R170) -/

/-- One bit of the CRC: it is combined with the top bit of the register, which moves up one place, and is combined with 0x1021
when the combined bit is 1. -/
def crcBit (reg : BitVec 16) (bit : Bool) : BitVec 16 :=
  if xor reg.msb bit then (reg <<< 1) ^^^ 0x1021#16 else reg <<< 1

/-- One byte of the CRC, most significant bit first. -/
def crcByte (reg : BitVec 16) (b : Byte) : BitVec 16 :=
  [7, 6, 5, 4, 3, 2, 1, 0].foldl (fun r k => crcBit r (b.getLsbD k)) reg

/-- The CRC of a packet's sender, kind, body length and body bytes. -/
def crc (bytes : List Byte) : BitVec 16 := bytes.foldl crcByte 0xFFFF#16

/-! ### Bodies as bytes (11.1) -/

/-- A frame field: 3 bytes, most significant first. -/
def frameBytes (f : Frame) : List Byte :=
  [BitVec.ofNat 8 (f / 65536), BitVec.ofNat 8 (f / 256), BitVec.ofNat 8 f]

/-- The number three bytes make, most significant first. -/
def frameOf (a b c : Byte) : Frame := a.toNat * 65536 + b.toNat * 256 + c.toNat

/-- The span byte: low row in the upper four bits, row count in the lower four. -/
def spanByte (low count : Nat) : Byte := BitVec.ofNat 8 (low * 16 + count)

/-- The flags byte of a CUE: bit 0 speaker, bit 1 source, upper bits 0 (R171). -/
def cueFlags (speaker : Bool) (source : Source) : Byte :=
  BitVec.ofNat 8 ((if speaker then 1 else 0) + (if source = .script then 2 else 0))

/-- A station number, or 0 for none. -/
def holderByte : Option Nat → Byte
  | some k => BitVec.ofNat 8 k
  | none => 0

def timeCode : TimeStatus → Byte
  | .anchored => 0
  | .following => 1
  | .drifting => 2

def floorCode : FloorState → Byte
  | .idle => 0
  | .bidding => 1
  | .live => 2
  | .yielding => 3

/-- The kind byte. -/
def Packet.kindByte : Packet → Byte
  | .cut _ _ => 0x01
  | .cue _ => 0x02
  | .revise _ => 0x03
  | .take _ => 0x04
  | .yield _ => 0x05
  | .item _ _ => 0x06
  | .state _ => 0x07

/-- The body of a CUE or REVISE: the length of text row 1 stands before the rows. -/
def CueBody.bytes (b : CueBody) : List Byte :=
  [b.seq, spanByte b.low b.count] ++ frameBytes b.showAt ++ frameBytes b.minOff ++ frameBytes b.lingerOff ++
  [BitVec.ofNat 8 b.gap, b.item, cueFlags b.speaker b.source, BitVec.ofNat 8 (b.rows.headD []).length] ++ b.rows.flatten

def StateClaim.bytes (c : StateClaim) : List Byte :=
  [c.seq, spanByte c.low c.count] ++ frameBytes c.showAt ++ frameBytes c.minOff ++ frameBytes c.offBound

def StateBody.bytes (b : StateBody) : List Byte :=
  [timeCode b.status, BitVec.ofNat 8 b.rate, BitVec.ofNat 8 b.displayRows, BitVec.ofNat 8 b.width] ++ frameBytes b.frame ++
  [floorCode b.floor, holderByte b.holder, b.item, BitVec.ofNat 8 b.claims.length] ++
  b.claims.flatMap StateClaim.bytes

/-- The body bytes of a packet. -/
def Packet.body : Packet → List Byte
  | .cut q off => q :: frameBytes off
  | .cue b => CueBody.bytes b
  | .revise b => CueBody.bytes b
  | .take forced => [if forced then 1 else 0]
  | .yield q => [holderByte q]
  | .item b i => frameBytes b ++ [i]
  | .state b => StateBody.bytes b

/-- The bytes the CRC covers: sender, kind, body length and body. -/
def Packet.content (sender : Nat) (p : Packet) : List Byte :=
  [BitVec.ofNat 8 sender, Packet.kindByte p, BitVec.ofNat 8 (Packet.body p).length] ++ Packet.body p

/-- The sync value. -/
def syncByte : Byte := 0xA6

/-- The two bytes of a CRC, high byte first. -/
def crcBytes (c : BitVec 16) : List Byte := [BitVec.ofNat 8 (c.toNat / 256), BitVec.ofNat 8 c.toNat]

/-- A packet as its sender puts it on the line. -/
def Packet.bytes (sender : Nat) (p : Packet) : List Byte :=
  syncByte :: Packet.content sender p ++ crcBytes (crc (Packet.content sender p))

/-! ### Reading a body (R171, R172) -/

/-- A successor or holder byte: 17 or more, and 0, are read as none. -/
def holderOf (b : Byte) : Option Nat := if isStation b.toNat then some b.toNat else none

def timeOf (b : Byte) : Option TimeStatus :=
  if b = 0 then some .anchored else if b = 1 then some .following else if b = 2 then some .drifting else none

def floorOf (b : Byte) : Option FloorState :=
  if b = 0 then some .idle else if b = 1 then some .bidding else if b = 2 then some .live
  else if b = 3 then some .yielding else none

/-- The text rows of a CUE or REVISE, from the row count, n1 and the bytes after n1 (R171). -/
def readRows (count n1 : Nat) (rest : List Byte) : List (List Byte) :=
  if count = 1 then [rest] else [rest.take n1, rest.drop n1]

/-- Whether n1 agrees with the row count and the bytes after it. -/
def rowsFit (count n1 : Nat) (rest : List Byte) : Bool :=
  if count = 1 then decide (rest.length = n1) else decide (n1 ≤ rest.length)

/-- A CUE or REVISE body, read in order (R171). -/
def readCue : List Byte → Option CueBody
  | q :: span :: s1 :: s2 :: s3 :: m1 :: m2 :: m3 :: l1 :: l2 :: l3 :: gap :: item :: fl :: n1 :: rest =>
    let b : CueBody :=
      { seq := q, low := span.toNat / 16, count := span.toNat % 16, showAt := frameOf s1 s2 s3, minOff := frameOf m1 m2 m3,
        lingerOff := frameOf l1 l2 l3, gap := gap.toNat, item := item, speaker := fl.getLsbD 0,
        source := if fl.getLsbD 1 then .script else .live, rows := readRows (span.toNat % 16) n1.toNat rest }
    if rowsFit (span.toNat % 16) n1.toNat rest && CueBody.valid b then some b else none
  | _ => none

/-- The claims of a STATE: exactly `k` of them, 11 bytes each. -/
def readClaims : Nat → List Byte → Option (List StateClaim)
  | 0, [] => some []
  | k + 1, q :: span :: s1 :: s2 :: s3 :: m1 :: m2 :: m3 :: o1 :: o2 :: o3 :: rest =>
    match readClaims k rest with
    | some l =>
      some ({ seq := q, low := span.toNat / 16, count := span.toNat % 16, showAt := frameOf s1 s2 s3,
              minOff := frameOf m1 m2 m3, offBound := frameOf o1 o2 o3 } :: l)
    | none => none
  | _, _ => none

/-- A STATE body (R172). -/
def readState : List Byte → Option StateBody
  | ts :: rate :: rows :: width :: f1 :: f2 :: f3 :: fl :: hold :: item :: k :: rest =>
    match timeOf ts, floorOf fl, readClaims k.toNat rest with
    | some time, some floor, some claims =>
      let b : StateBody :=
        { status := time, rate := rate.toNat, displayRows := rows.toNat, width := width.toNat, frame := frameOf f1 f2 f3,
          floor := floor, holder := holderOf hold, item := item, claims := claims }
      if StateBody.valid b then some b else none
    | _, _, _ => none
  | _ => none

/-- A body of the given kind byte (R144): none when the kind is unknown, the length is not the one the kind calls for, or a
field is out of range. In a TAKE only bit 0 is read. -/
def readBody (kind : Byte) (body : List Byte) : Option Packet :=
  match kind.toNat, body with
  | 1, [q, a, b, c] => some (.cut q (frameOf a b c))
  | 2, body => (readCue body).map .cue
  | 3, body => (readCue body).map .revise
  | 4, [b] => some (.take (b.getLsbD 0))
  | 5, [b] => some (.yield (holderOf b))
  | 6, [a, b, c, i] => some (.item (frameOf a b c) i)
  | 7, body => (readState body).map .state
  | _, _ => none

end Sys2Proof.Machine
end

