-- ==== Sys2Proof/Decode.lean ====
section
/-! DEFINITION. Commands from bits: the table's bits, the bytes of the text port (R17, 11.2), and the bytes of a packet on the cue line
(R143, R144). -/

namespace Sys2Proof

/-- The command a word of the table's bits spells. The table gives no row any bits, so no word spells a command. -/
def decodeTableWord (_nbits _w : Nat) : Option Instr := none

/-! ### The text port -/

/-- The command of an assigned control code (11.2). -/
def decodeControl (b : Byte) : Option Instr :=
  match b.toNat with
  | 0x01 => some .paceIntroducer
  | 0x02 => some .scriptBegin
  | 0x03 => some .scriptEnd
  | 0x04 => some .endBlock
  | 0x05 => some .speaker
  | 0x08 => some .retract
  | 0x0E => some .next
  | 0x0F => some .loopOn
  | 0x10 => some .loopOff
  | 0x11 => some .take
  | 0x12 => some .yield
  | 0x13 => some .park
  | 0x14 => some .unpark
  | 0x15 => some .hold
  | 0x16 => some .release
  | 0x18 => some .status
  | 0x19 => some .paceTerminator
  | 0x1B => some .reset
  | _ => none

/-- The command of a byte taken from the text port (R17): a byte with a framing error, a byte in 0x80..0xFF and an unassigned
control code are discarded. -/
def decodeTextByte (framingError : Bool) (b : Byte) : Instr :=
  if framingError then .discardedByte true b
  else if Machine.isCharacter b then .character b
  else
    match decodeControl b with
    | some i => i
    | none => .discardedByte false b

/-! ### The cue line -/

/-- The command of a valid packet from a peer, or from a twin of the station. -/
def packetCommand (sender : Nat) : Packet → Instr
  | .cut seq off => .cutPacket sender seq off
  | .cue b => .cuePacket sender b
  | .revise b => .revisePacket sender b
  | .take forced => if forced then .forcedTake sender else .plainTake sender
  | .yield q => .yieldPacket sender q
  | .item b i => .itemPacket sender b i
  | .state b => .statePacket sender b

/-- The command of a complete packet: its CRC, sender and body are checked (R144). -/
def decodeComplete (sender kind len : Byte) (body crcField : List Byte) : Instr :=
  if crcField = Machine.crcBytes (Machine.crc (sender :: kind :: len :: body)) ∧ Machine.isStation sender.toNat = true then
    match Machine.readBody kind body with
    | some p => packetCommand sender.toNat p
    | none => .discardedPacket
  else .discardedPacket

/-- The command of the bytes received between an idle line and the next: a packet with no sync value, or one that ends before
its last CRC byte, is a bad packet (R143). -/
def decodeLine : List Byte → Instr
  | sync :: sender :: kind :: len :: rest =>
    if sync = Machine.syncByte ∧ len.toNat + 2 ≤ rest.length then
      decodeComplete sender kind len (rest.take len.toNat) ((rest.drop len.toNat).take 2)
    else .cutShortPacket
  | _ => .cutShortPacket

end Sys2Proof
end

