-- ==== Sys2Proof/Machine/Flags.lean ====
section
/-! DEFINITION. The sticky flags (R168), the lock state (R7) and the ALERT line (R169). -/

namespace Sys2Proof.Machine

/-- The sticky flags by name, in the order of R168. -/
inductive Sticky where
  | refLost
  | timeStep
  | textError
  | paramClamped
  | queueOverflow
  | staleDrop
  | mapFull
  | lineFault
  | configMismatch
  | reportLost
  | scriptFull
  deriving DecidableEq, Repr

/-- Whether a flag is set. -/
def Flags.has (f : Flags) : Sticky → Bool
  | .refLost => f.refLost
  | .timeStep => f.timeStep
  | .textError => f.textError
  | .paramClamped => f.paramClamped
  | .queueOverflow => f.queueOverflow
  | .staleDrop => f.staleDrop
  | .mapFull => f.mapFull
  | .lineFault => f.lineFault
  | .configMismatch => f.configMismatch
  | .reportLost => f.reportLost
  | .scriptFull => f.scriptFull

/-- The flags with one more set; a flag set while it is already set stays set (R168). -/
def Flags.raise (f : Flags) : Sticky → Flags
  | .refLost => { f with refLost := true }
  | .timeStep => { f with timeStep := true }
  | .textError => { f with textError := true }
  | .paramClamped => { f with paramClamped := true }
  | .queueOverflow => { f with queueOverflow := true }
  | .staleDrop => { f with staleDrop := true }
  | .mapFull => { f with mapFull := true }
  | .lineFault => { f with lineFault := true }
  | .configMismatch => { f with configMismatch := true }
  | .reportLost => { f with reportLost := true }
  | .scriptFull => { f with scriptFull := true }

/-- Every sticky flag, in the order of R168. -/
def allSticky : List Sticky :=
  [.refLost, .timeStep, .textError, .paramClamped, .queueOverflow, .staleDrop, .mapFull, .lineFault, .configMismatch,
   .reportLost, .scriptFull]

/-- The station flags a condition to the Report Unit. -/
def State.flag (f : Sticky) (s : State) : State :=
  s.modReport fun u => { u with flags := u.flags.raise f }

/-- The station flags a condition when it has arisen. -/
def State.flagIf (b : Bool) (f : Sticky) (s : State) : State := if b then s.flag f else s

/-- The lock state is LOCKED: the good-pulse count is 8 (R7). -/
def State.locked (s : State) : Bool := decide (s.ref.goodPulses = 8)

/-- The ALERT line is driven lit (R169). -/
def State.alert (s : State) : Bool :=
  decide (s.station.mode = .mute) || !s.locked || decide (s.ref.status = .drifting) || decide (0 < s.line.mismatch)

end Sys2Proof.Machine
end

