-- ==== Sys2Proof/Machine/Reports.lean ====
section
/-! DEFINITION. The report queue (R165) and the report lines as the text port carries them (R166, R167, R174). -/

namespace Sys2Proof.Machine

/-! ### The report queue (R165) -/

/-- The report queue holds at most this many lines. -/
def reportCapacity : Nat := 32

/-- Room is made in a full report queue: the oldest line not begun leaves whole and REPORT_LOST is flagged. The line at the
head is always the one being sent, so the oldest not begun is the second (log entry 6). -/
def makeReportRoom (u : ReportUnit) : ReportUnit :=
  if reportCapacity ≤ u.queue.length then
    { u with queue := u.queue.eraseIdx 1, flags := u.flags.raise .reportLost }
  else u

/-- A report is queued at the tail (R165). -/
def pushReport (r : Report) (s : State) : State :=
  s.modReport fun u =>
    let u := makeReportRoom u
    { u with queue := u.queue ++ [r] }

/-- Several reports are queued, in the order listed. -/
def pushReports : List Report → State → State
  | [], s => s
  | r :: rs, s => pushReports rs (pushReport r s)

/-- Entry into RESETTING empties the queue of every line not yet begun and clears every sticky flag (R163). -/
def ReportUnit.entered (u : ReportUnit) : ReportUnit := { u with queue := u.queue.take 1, flags := .clear }

/-! ### Lines (R174) -/

/-- The bytes of a plain ASCII string. -/
def ascii (t : String) : List Byte := t.toList.map fun c => BitVec.ofNat 8 c.toNat

/-- A number in decimal, with no leading zeros and no separators. -/
def decimal (k : Nat) : List Byte := (Nat.toDigits 10 k).map fun c => BitVec.ofNat 8 c.toNat

/-- A field that may be none: none is written as a hyphen. -/
def orHyphen : Option Nat → List Byte
  | some k => decimal k
  | none => ascii "-"

/-- A row span: the low row, a hyphen and the highest row, or the low row alone for one row. -/
def spanField (low count : Nat) : List Byte :=
  if count = 1 then decimal low else decimal low ++ ascii "-" ++ decimal (low + count - 1)

def CloseCause.name : CloseCause → String
  | .full => "FULL"
  | .sentence => "SENTENCE"
  | .finish => "END"
  | .idle => "IDLE"
  | .speaker => "SPEAKER"
  | .item => "ITEM"

def DropReason.name : DropReason → String
  | .overflow => "OVERFLOW"
  | .stale => "STALE"
  | .yield => "YIELD"

def floorName : FloorState → String
  | .idle => "IDLE"
  | .bidding => "BIDDING"
  | .live => "LIVE"
  | .yielding => "YIELDING"

def timeName : TimeStatus → String
  | .anchored => "ANCHORED"
  | .following => "FOLLOWING"
  | .drifting => "DRIFTING"

def Mode.name : Mode → String
  | .joining => "JOINING"
  | .active => "ACTIVE"
  | .parked => "PARKED"
  | .resetting => "RESETTING"
  | .mute => "MUTE"

def Pace.name : Pace → String
  | .normal => "NORMAL"
  | .catchUp => "CATCH_UP"

def Sticky.name : Sticky → String
  | .refLost => "REF_LOST"
  | .timeStep => "TIME_STEP"
  | .textError => "TEXT_ERROR"
  | .paramClamped => "PARAM_CLAMPED"
  | .queueOverflow => "QUEUE_OVERFLOW"
  | .staleDrop => "STALE_DROP"
  | .mapFull => "MAP_FULL"
  | .lineFault => "LINE_FAULT"
  | .configMismatch => "CONFIG_MISMATCH"
  | .reportLost => "REPORT_LOST"
  | .scriptFull => "SCRIPT_FULL"

/-- Fields joined by a separator. -/
def joinWith (sep : List Byte) : List (List Byte) → List Byte
  | [] => []
  | [x] => x
  | x :: xs => x ++ sep ++ joinWith sep xs

/-- The sticky flags set, joined by commas, or a hyphen (R174). DEDUCED: they stand in the order of R168's table (log entry 45). -/
def flagsField (f : Flags) : List Byte :=
  match allSticky.filter f.has with
  | [] => ascii "-"
  | l => joinWith (ascii ",") (l.map fun k => ascii k.name)

/-- A report's name and its fields in the order of R174. -/
def Report.fields : Report → List (List Byte)
  | .queued q c cause f => [ascii "QUEUED", decimal q.toNat, decimal c, ascii cause.name, decimal f]
  | .claimed q low count s m l =>
      [ascii "CLAIMED", decimal q.toNat, spanField low count, decimal s, decimal m, decimal l]
  | .onAir q f => [ascii "ON AIR", decimal q.toNat, decimal f]
  | .off q f => [ascii "OFF", decimal q.toNat, decimal f]
  | .dropped r q => [ascii "DROPPED", ascii r.name, orHyphen (q.map BitVec.toNat)]
  | .revised q => [ascii "REVISED", decimal q.toNat]
  | .late q => [ascii "LATE", orHyphen (q.map BitVec.toNat)]
  | .floor st h => [ascii "FLOOR", ascii (floorName st), orHyphen h]
  | .takeLost => [ascii "TAKE LOST"]
  | .scriptEnd => [ascii "SCRIPT END"]
  | .busy => [ascii "BUSY"]
  | .refused => [ascii "REFUSED", ascii "TAKE"]
  | .status f =>
      [ascii "STATUS", ascii f.mode.name, ascii (floorName f.floor), orHyphen f.holder, ascii f.pace.name,
       ascii (timeName f.time), ascii (if f.locked then "LOCKED" else "UNLOCKED"), decimal f.n, decimal f.blocks,
       decimal f.packets, decimal f.claims, decimal f.notOnAir, joinWith (ascii "/") (f.entries.map decimal),
       decimal f.item.toNat, flagsField f.flags]

/-- The bytes of a report line on the text port: its name and fields, each preceded by a single space, and 0x0D, 0x0A (R174). -/
def Report.line (r : Report) : List Byte := joinWith (ascii " ") r.fields ++ [0x0D, 0x0A]

end Sys2Proof.Machine
end

