-- ==== Sys2Proof/Machine/Ops.lean ====
section
/-! DEFINITION. The named operations over the Transmit Queue (R154), the Block Queue (R30, R32), the Claim List (R72, R75, R79, R81, R82) and
the Floor Controller's view (R108 to R111): what the commands share. -/

namespace Sys2Proof.Machine

/-! ### The Transmit Queue (R154) -/

/-- The class of a packet: 0 for CUT, 2 for STATE, 1 for the others (R149). -/
def PacketKind.cls : PacketKind → Nat
  | .cut _ _ => 0
  | .state => 2
  | _ => 1

/-- A packet queued anew: attempt count 0, fallback mark clear. -/
def QPacket.fresh (k : PacketKind) : QPacket :=
  { kind := k, attempts := 0, fallback := false, sent := none, mark := .none }

/-- The packet has started and has not been echoed or stopped. -/
def QPacket.started (q : QPacket) : Bool := q.sent.isSome

/-- The Transmit Queue holds at most this many packets; the last place is kept for class 0. -/
def transmitCapacity : Nat := 8

/-- Places for class 1 and class 2. -/
def classPlaces : Nat := 7

/-- The head of the queue: the oldest class 0 packet, else the oldest class 1 packet, else the STATE. -/
def queueHead (q : List QPacket) : Option QPacket :=
  match q.find? fun p => decide (p.kind.cls = 0) with
  | some p => some p
  | none =>
    match q.find? fun p => decide (p.kind.cls = 1) with
    | some p => some p
    | none => q.find? fun p => decide (p.kind.cls = 2)

/-- A packet of the station's own is in transmission. -/
def State.transmitting (s : State) : Bool := s.line.queue.any QPacket.started

/-- Waiting requests enter the queue from the oldest, each while a place is free (R154); an own ITEM that enters becomes
QUEUED (R135). -/
def enterWaiting (s : State) : State :=
  let free := classPlaces - s.line.queue.length
  let entering := s.line.waiting.take free
  let s := s.modLine fun l => { l with queue := l.queue ++ entering, waiting := l.waiting.drop free }
  if entering.any fun q => decide (q.kind = .item) then s.modItem fun i => { i with own := .queued } else s

/-- A class 1 or class 2 packet is asked for: it enters the queue when it has a place, and waits otherwise (R154). -/
def requestPacket (k : PacketKind) (s : State) : State :=
  if s.line.queue.length < classPlaces then s.modLine fun l => { l with queue := l.queue ++ [.fresh k] }
  else s.modLine fun l => { l with waiting := l.waiting ++ [.fresh k] }

/-- An owner removes its packets that have not started, one that stopped on a mismatch among them (log entry 44), and its
waiting requests with them; the places freed are taken by the waiting requests that remain (R154). -/
def removeUnstarted (p : PacketKind → Bool) (s : State) : State :=
  enterWaiting (s.modLine fun l =>
    { l with queue := l.queue.filter fun q => q.started || !p q.kind, waiting := l.waiting.filter fun q => !p q.kind })

/-- Some packet of this kind is queued, waiting or in transmission. -/
def hasPacket (p : PacketKind → Bool) (s : State) : Bool :=
  (s.line.queue.any fun q => p q.kind) || (s.line.waiting.any fun q => p q.kind)

def PacketKind.isCueOf (seq : Byte) : PacketKind → Bool
  | .cue q => q == seq
  | _ => false

def PacketKind.isReviseOf (seq : Byte) : PacketKind → Bool
  | .revise q => q == seq
  | _ => false

def PacketKind.isCut : PacketKind → Bool
  | .cut _ _ => true
  | _ => false

def PacketKind.isTake : PacketKind → Bool
  | .take _ => true
  | _ => false

def PacketKind.isYield : PacketKind → Bool
  | .yield => true
  | _ => false

def PacketKind.isItem : PacketKind → Bool
  | .item => true
  | _ => false

def PacketKind.isState : PacketKind → Bool
  | .state => true
  | _ => false

/-! ### The Block Queue (R30, R32) -/

/-- The Block Queue holds at most this many blocks. -/
def blockCapacity : Nat := 16

/-- The block at the head leaves as DROPPED with reason OVERFLOW when the queue is full; a hold on it ends (R30, R51). -/
def dropOverflow (s : State) : State :=
  match s.text.queue with
  | b :: rest =>
    if blockCapacity ≤ s.text.queue.length then
      pushReport (.dropped .overflow (some b.seq))
        (((s.modText fun t => { t with queue := rest }).modTimer fun t => { t with hold := false }).flag .queueOverflow)
    else s
  | [] => s

/-- A block enters at the tail of the Block Queue with its QUEUED report (R30). -/
def enterTail (b : Block) (s : State) : State :=
  let s := dropOverflow s
  pushReport (.queued b.seq b.text.count b.cause b.closeFrame) (s.modText fun t => { t with queue := t.queue ++ [b] })

/-- A block handed back re-enters at the head; when the queue is full the block itself is dropped (R32). -/
def enterHead (b : Block) (s : State) : State :=
  if blockCapacity ≤ s.text.queue.length then
    pushReport (.dropped .overflow (some b.seq)) (s.flag .queueOverflow)
  else (s.modText fun t => { t with queue := b :: t.queue }).modTimer fun t => { t with hold := false }

/-- Blocks handed back together, the last listed first, so that the first listed ends at the head (R72). -/
def enterHeads : List Block → State → State
  | [], s => s
  | b :: bs, s => enterHead b (enterHeads bs s)

/-! ### The Claim List (05) -/

def Claim.isPlanned (c : Claim) : Bool := decide (c.state = .planned)

/-- The claim's cue has been echoed: CLAIMED or ON_AIR. -/
def Claim.echoed (c : Claim) : Bool := decide (c.state = .claimed) || decide (c.state = .onAir)

/-- Every claim of this sequence is changed. -/
def updateClaim (seq : Byte) (f : Claim → Claim) (s : State) : State :=
  s.setClaims (s.claims.map fun c => if c.seq = seq then f c else c)

/-- The block rebuilt from a claim record (R72). -/
def Claim.block (c : Claim) : Block :=
  { seq := c.seq, text := c.text, arrival := c.arrival, closeFrame := c.closeFrame, cause := c.cause, item := c.item,
    source := c.source }

/-- The first PLANNED claim that the test picks, and every PLANNED claim after it in claim order (R72). -/
def plannedFrom (p : Claim → Bool) : List Claim → List Claim
  | [] => []
  | c :: cs => if c.isPlanned && p c then c :: cs.filter Claim.isPlanned else plannedFrom p cs

/-- The other claims. -/
def notPlannedFrom (p : Claim → Bool) : List Claim → List Claim
  | [] => []
  | c :: cs => if c.isPlanned && p c then cs.filter (fun d => !d.isPlanned) else c :: notPlannedFrom p cs

/-- The packet is the CUE of one of these claims. -/
def isCueOfAny (l : List Claim) (k : PacketKind) : Bool := l.any fun c => k.isCueOf c.seq

/-- The first PLANNED claim that the test picks leaves the list with the later PLANNED claims, and their CUEs are removed.
DESIGN CHOICE: a REVISE queued for one of them stays (log entry 39). -/
def removePlanned (p : Claim → Bool) (s : State) : State :=
  removeUnstarted (isCueOfAny (plannedFrom p s.claims)) (s.setClaims (notPlannedFrom p s.claims))

/-- A hand-back (R72). DESIGN CHOICE: a withdrawing claim is handed back like any other (log entry 18). -/
def handBack (p : Claim → Bool) (s : State) : State :=
  enterHeads ((plannedFrom p s.claims).map Claim.block) (removePlanned p s)

/-- PLANNED claims leave the list with DROPPED YIELD reports (R75, R76, R83). -/
def dropPlanned (p : Claim → Bool) (s : State) : State :=
  pushReports ((plannedFrom p s.claims).map fun c => .dropped .yield (some c.seq)) (removePlanned p s)

/-- A revision is abandoned and its REVISE removed, without report. -/
def dropRevision (seq : Byte) (s : State) : State :=
  removeUnstarted (PacketKind.isReviseOf seq) (updateClaim seq (fun c => { c with revision := none }) s)

/-- The revisions that claims hold are abandoned, each with a LATE report (R75). -/
def lateRevisions : List Claim → State → State
  | [], s => s
  | c :: cs, s =>
    lateRevisions cs (if c.revision.isSome then pushReport (.late (some c.seq)) (dropRevision c.seq s) else s)

/-- What leaving the floor other than by a forced take does to the claims (R75). -/
def leaveFloorClaims (s : State) : State :=
  let s := dropPlanned (fun _ => true) s
  lateRevisions s.claims s

/-- The floor state lets a CUE or REVISE start and a retraction revise (R76, R84). -/
def State.onFloor (s : State) : Bool := decide (s.floor.state = .live) || decide (s.floor.state = .yielding)

/-! ### The floor (07) -/

/-- The floor state is set; a change owes the act's FLOOR report (R125). -/
def setFloor (f : FloorState) (s : State) : State :=
  s.modFloor fun u => { u with state := f, reportDue := u.reportDue || decide (u.state ≠ f) }

/-- The holder view is set; a change owes the act's FLOOR report (R125). -/
def setHolder (h : Option Nat) (s : State) : State :=
  s.modFloor fun u => { u with holder := h, reportDue := u.reportDue || decide (u.holder ≠ h) }

/-- The pending successor is set; it makes no report (R125). -/
def setSuccessor (h : Option Nat) (s : State) : State := s.modFloor fun u => { u with successor := h }

/-- The station leaves BIDDING: the bid count stops and its own TAKE, if not started, is removed (R118). -/
def endBid (s : State) : State :=
  removeUnstarted PacketKind.isTake (s.modFloor fun u => { u with bidRunning := false, takeEchoed := false })

/-- A bid ends without the floor: IDLE, with TAKE LOST (R111, R112, R113, R118). -/
def loseBid (s : State) : State := pushReport .takeLost (setFloor .idle (endBid s))

/-- The station enters YIELDING (R119). -/
def enterYielding (s : State) : State :=
  setFloor .yielding (s.modFloor fun u => { u with yieldCount := 0, yieldOwed := false })

/-- A station that becomes LIVE takes NORMAL pace (R66), ends its bid, and enters YIELDING at once with a park owed (R124). -/
def becomeLive (s : State) : State :=
  let s := endBid ((setFloor .live s).modTimer fun t => { t with pace := .normal })
  if s.floor.parkOwed then enterYielding s else s

/-- The station is made holder in its own view (R109): from BIDDING, or from IDLE in ACTIVE, it becomes LIVE; LIVE or YIELDING
it stays as it was; otherwise it cannot hold the floor, and its view becomes none. -/
def holdFloor (s : State) : State :=
  if s.floor.state = .bidding ∨ (s.floor.state = .idle ∧ s.station.mode = .active) then
    becomeLive (setHolder (some s.own) s)
  else if s.onFloor then setHolder (some s.own) s
  else setHolder none s

/-- The station leaves the floor for IDLE other than by a forced take: R75 acts, its queued YIELD is removed and the yield owed
is cleared (R112, R122). -/
def leaveFloor (s : State) : State :=
  leaveFloorClaims (removeUnstarted PacketKind.isYield
    (setFloor .idle (s.modFloor fun u => { u with yieldOwed := false })))

/-! ### Give-up, CUTs and withdrawal (R153, R155, R81) -/

/-- The revision of a claim whose REVISE was given up: a new REVISE while the show is at least 5 frames ahead and the station
has the floor, and LATE otherwise (R87). DESIGN CHOICE: a second REVISE of the claim that already stands queued is not looked for
(log entry 52). -/
def reviseGivenUp (seq : Byte) (s : State) : State :=
  match s.claims.find? fun c => decide (c.seq = seq) && c.revision.isSome with
  | some c =>
    if s.onFloor && decide (5 ≤ s.dist s.n c.showAt) then requestPacket (.revise seq) s
    else pushReport (.late (some seq)) (updateClaim seq (fun c => { c with revision := none }) s)
  | none => s

/-- The withdrawal of a claim whose CUT was dropped is cleared; an emptied claim reports LATE (R81). -/
def cutGivenUp (seq : Byte) (s : State) : State :=
  match s.claims.find? fun c => decide (c.seq = seq) && c.withdrawal.isSome with
  | some c =>
    let s := updateClaim seq (fun c => { c with withdrawal := none, emptied := false }) s
    if c.emptied then pushReport (.late (some seq)) s else s
  | none => s

/-- While the yield is owed, a YIELD is queued unless one is queued, waiting or in transmission (R120). -/
def queueYield (s : State) : State :=
  if s.floor.yieldOwed ∧ hasPacket PacketKind.isYield s = false then requestPacket .yield s else s

/-- What the owner of a given-up packet does, the packet having left the queue (R153). A YIELD still owed is queued anew at once
(R120), before any attempt of the Cue Timer. DESIGN CHOICE: a TAKE given up by a station that is no longer BIDDING ends no bid
(log entry 50). -/
def ownerGivesUp (k : PacketKind) (s : State) : State :=
  match k with
  | .cue seq => handBack (fun c => decide (c.seq = seq)) s
  | .revise seq => reviseGivenUp seq s
  | .cut seq _ => cutGivenUp seq s
  | .take _ => if s.floor.state = .bidding then loseBid s else s
  | .yield => queueYield s
  | .item => s.modItem fun i => { i with own := .none }
  | .state => s

/-- A packet is given up: LINE_FAULT, and its owner acts (R153). -/
def giveUp (k : PacketKind) (s : State) : State := ownerGivesUp k (enterWaiting (s.flag .lineFault))

/-- The place of the last packet the test picks. -/
def lastIdx? (p : QPacket → Bool) (l : List QPacket) : Option Nat :=
  (l.reverse.findIdx? p).map fun i => l.length - 1 - i

/-- A packet is removed from the queue by its place. -/
def removeAt (i : Nat) (s : State) : State := s.modLine fun l => { l with queue := l.queue.eraseIdx i }

/-- The packet at a place is displaced: it leaves and is treated as given up. -/
def displaceAt (i : Nat) (s : State) : State :=
  match s.line.queue[i]? with
  | some q => giveUp q.kind (removeAt i s)
  | none => s

/-- Room for a CUT in a full queue (R155): the STATE goes, else the newest class 1 packet, else the oldest class 0 packet,
each only when not in transmission. -/
def makeCutRoom (s : State) : State :=
  match s.line.queue.findIdx? fun q => decide (q.kind.cls = 2) && !q.started with
  | some i => removeAt i s
  | none =>
    match lastIdx? (fun q => decide (q.kind.cls = 1) && !q.started) s.line.queue with
    | some i => displaceAt i s
    | none =>
      match s.line.queue.findIdx? fun q => decide (q.kind.cls = 0) && !q.started with
      | some i => displaceAt i s
      | none => s

/-- A CUT always enters the Transmit Queue at once (R155). -/
def queueCut (seq : Byte) (off : Frame) (mark : ResetMark) (s : State) : State :=
  let s := if transmitCapacity ≤ s.line.queue.length then makeCutRoom s else s
  s.modLine fun l => { l with queue := l.queue ++ [{ QPacket.fresh (.cut seq off) with mark := mark }] }

/-- A withdrawal: the claim records the off frame, its revision is abandoned, and a CUT is queued (R81). -/
def withdraw (seq : Byte) (off : Frame) (mark : ResetMark) (s : State) : State :=
  queueCut seq off mark (dropRevision seq (updateClaim seq (fun c => { c with withdrawal := some off }) s))

/-! ### The end of a claim (R79, R82) -/

/-- The claim whose cue has left the map, if the list holds it. -/
def findEchoed (seq : Byte) (s : State) : Option Claim :=
  s.claims.find? fun c => decide (c.seq = seq) && c.echoed

/-- An echoed claim ends: it leaves the list with its OFF report (R79), and a revision it held goes with it (log entry 9). -/
def endClaim (seq : Byte) (s : State) : State :=
  match findEchoed seq s with
  | some _ =>
    let s := removeUnstarted (PacketKind.isReviseOf seq)
      (s.setClaims (s.claims.eraseP fun c => decide (c.seq = seq) && c.echoed))
    pushReport (.off seq s.n) s
  | none => s

/-- A CUT may be queued in this mode (R81). -/
def State.cutAllowed (s : State) : Bool := decide (s.station.mode = .active) || decide (s.station.mode = .resetting)

/-- An own cue that lost a conflict: its claim ends, and a CUT withdraws the cue from the other maps (R82). -/
def conflictLoss (seq : Byte) (s : State) : State :=
  match findEchoed seq s with
  | some c =>
    let s := endClaim seq s
    if c.withdrawal.isNone && s.cutAllowed then
      queueCut seq (if c.state = .claimed then c.showAt else s.plus s.n 4) .none s
    else s
  | none => s

/-- Why the last entry of a cue went (R105). -/
inductive MapEnd where
  /-- Expiry, a CUT, eviction or replacement. -/
  | plain
  /-- Loss of a conflict. -/
  | conflict
  deriving DecidableEq, Repr

/-- The notice to the Claim List that a cue has left the map; none is given for a peer's cue (R105). -/
def cueGone (why : MapEnd) (c : Cue) (s : State) : State :=
  if c.owner = s.own then
    match why with
    | .plain => endClaim c.seq s
    | .conflict => conflictLoss c.seq s
  else s

/-- The notices of several cues, in order. DESIGN CHOICE: the order is the map's, the earlier show first (log entry 42). -/
def cuesGone (why : MapEnd) : List Cue → State → State
  | [], s => s
  | c :: cs, s => cuesGone why cs (cueGone why c s)

end Sys2Proof.Machine
end

