-- ==== Sys2Proof/Machine/MapOps.lean ====
section
/-! DEFINITION. The Row Map (06): entering a cue, eviction, conflict, displacement, STATE replacement, CUT, the item cut and expiry; and
the tests the Claim List makes on it (R73, R78). -/

namespace Sys2Proof.Machine

/-! ### Reading the map -/

/-- The cue covers the display row. -/
def Cue.covers (c : Cue) (row : Nat) : Bool := decide (c.low ≤ row) && decide (row < c.low + c.count)

/-- Two row spans share a row. -/
def spansShare (low count low' count' : Nat) : Bool :=
  decide (low < low' + count') && decide (low' < low + count)

/-- Two cues share a row. -/
def Cue.shares (a b : Cue) : Bool := spansShare a.low a.count b.low b.count

/-- The cue has this identity (00_scope 3.5). -/
def Cue.isOf (c : Cue) (owner : Nat) (seq : Byte) : Bool := decide (c.owner = owner) && decide (c.seq = seq)

/-- Two cues of one identity. -/
def Cue.same (a b : Cue) : Bool := a.isOf b.owner b.seq

/-- The list of a display row, the earlier show first (R91). -/
def rowEntries (s : State) (row : Nat) : List Cue := s.map.filter fun c => c.covers row

/-- The cue of an identity, when the map holds it. -/
def findCue (owner : Nat) (seq : Byte) (s : State) : Option Cue := s.map.find? fun c => c.isOf owner seq

/-- A cue without its entries. -/
def withoutCue (owner : Nat) (seq : Byte) (l : List Cue) : List Cue := l.filter fun c => !c.isOf owner seq

/-- A cue takes its place in order of show frame, judged by distance from n (R91). -/
def insertCue (day n : Nat) (c : Cue) : List Cue → List Cue
  | [] => [c]
  | d :: ds => if frameDist day n c.showAt < frameDist day n d.showAt then c :: d :: ds else d :: insertCue day n c ds

/-- An off bound brought to `f` and clamped not before n + 1 (R96); the clamp sets none after the bound `held` (R94). -/
def clampBound (day n held f : Nat) : Frame :=
  if frameDist day ((n + 1) % day) f < 0 then earlierOf day ((n + 1) % day) held else f

/-! ### Eviction and entry (R90, R92) -/

/-- Cue `a` is evicted rather than `b`: the earlier off bound, then the earlier show, then the lower owner (R92). -/
def evictBefore (day n : Nat) (a b : Cue) : Bool :=
  let oa := frameDist day n a.offBound
  let ob := frameDist day n b.offBound
  let sa := frameDist day n a.showAt
  let sb := frameDist day n b.showAt
  decide (oa < ob) || (decide (oa = ob) && (decide (sa < sb) || (decide (sa = sb) && decide (a.owner < b.owner))))

/-- The cue to evict, of those listed. -/
def pickEvicted (day n : Nat) : List Cue → Option Cue
  | [] => none
  | c :: cs =>
    match pickEvicted day n cs with
    | some d => if evictBefore day n d c then some d else some c
    | none => some c

/-- A display row's list holds at most this many entries. -/
def rowCapacity : Nat := 8

/-- Room on a row for an entry (R92): from a full row one cue is evicted whole, MAP_FULL is flagged and an own claim ends. The
cues of the packet in hand are not candidates. -/
def makeRowRoom (inHand : Cue → Bool) (row : Nat) (s : State) : State :=
  if rowCapacity ≤ (rowEntries s row).length then
    match pickEvicted s.day s.n ((rowEntries s row).filter fun c => !inHand c) with
    | some v => cueGone .plain v ((s.setMap (withoutCue v.owner v.seq s.map)).flag .mapFull)
    | none => s
  else s

/-- Entries of a cue are made on each row of its span (R90). DESIGN CHOICE: room is made on the low row first (log entry 41). -/
def makeEntries (inHand : Cue → Bool) (c : Cue) (s : State) : State :=
  let s := makeRowRoom inHand c.low s
  let s := if c.count = 2 then makeRowRoom inHand (c.low + 1) s else s
  s.setMap (insertCue s.day s.n c s.map)

/-! ### Conflict (R97, R98) -/

/-- Two cues conflict: they share a row and each one's show is before the other's minimum-off (R97). -/
def conflicts (day : Nat) (a b : Cue) : Bool :=
  a.shares b && isAfter day a.showAt b.minOff && isAfter day b.showAt a.minOff

/-- Of two conflicting cues, `a` is kept in preference to `b`: the earlier show, then the lower owner (R97). -/
def preferred (day : Nat) (a b : Cue) : Bool :=
  isAfter day a.showAt b.showAt || (decide (frameDist day a.showAt b.showAt = 0) && decide (a.owner < b.owner))

/-- The conflict test of a cue entered from a packet (R98). DESIGN CHOICE: of two cues of one owner with equal shows the cue tested
is kept (log entry 56). -/
def conflictTest (c : Cue) (s : State) : State :=
  let against := s.map.filter fun d => !d.same c && conflicts s.day d c
  if against.any fun d => preferred s.day d c then
    cueGone .conflict c (s.setMap (withoutCue c.owner c.seq s.map))
  else
    cuesGone .conflict against (s.setMap (s.map.filter fun d => d.same c || !conflicts s.day d c))

/-! ### Displacement (R95) -/

/-- The bound that cue `c` sets on a neighbour with an earlier show (R95, first case). -/
def boundEarlier (day n : Nat) (c d : Cue) : Cue :=
  let edge := subFrames day c.showAt c.gap
  if !d.same c && d.shares c && isAfter day d.showAt c.showAt && isAfter day edge d.offBound then
    { d with offBound := clampBound day n d.offBound (earlierOf day (laterOf day d.minOff edge) d.offBound) }
  else d

/-- The bound that a neighbour with a later show sets on cue `c` (R95, second case). -/
def boundByLater (day n : Nat) (c d : Cue) : Cue :=
  let edge := subFrames day d.showAt d.gap
  if !d.same c && d.shares c && isAfter day c.showAt d.showAt && isAfter day edge c.offBound then
    { c with offBound := clampBound day n c.offBound (earlierOf day (laterOf day c.minOff edge) c.offBound) }
  else c

/-- A cue that keeps its entries and its neighbours are bounded (R95). -/
def boundNeighbours (c : Cue) (s : State) : State :=
  match findCue c.owner c.seq s with
  | some c =>
    let c' := s.map.foldl (boundByLater s.day s.n) c
    s.setMap (s.map.map fun d => if d.same c then c' else boundEarlier s.day s.n c d)
  | none => s

/-! ### Expiry (R104) -/

/-- The cue's off bound is at or before n. -/
def cueEnded (s : State) (c : Cue) : Bool := atOrBefore s.day c.offBound s.n

/-- The entries whose off bound is at or before n leave the map (R104); at the end of a packet's work too, by R96. -/
def expireCues (s : State) : State :=
  cuesGone .plain (s.map.filter (cueEnded s)) (s.setMap (s.map.filter fun c => !cueEnded s c))

/-! ### Packets (R90, R93, R100, R102) -/

/-- The cue a CUE or REVISE carries: its off bound is its linger-off (R90). -/
def cueOf (sender : Nat) (b : CueBody) : Cue :=
  { owner := sender, seq := b.seq, showAt := b.showAt, minOff := b.minOff, lingerOff := b.lingerOff, offBound := b.lingerOff,
    gap := b.gap, low := b.low, count := b.count }

/-- The Row Map takes a CUE (R90): entries of the same identity go silently, and the cue is entered, tested and bounded. -/
def mapCue (sender : Nat) (b : CueBody) (s : State) : State :=
  let c := cueOf sender b
  let s := s.setMap (withoutCue sender b.seq s.map)
  boundNeighbours c (conflictTest c (makeEntries (fun d => d.same c) c s))

/-- The Row Map takes a REVISE (R93): entries it holds stand; when it holds none, the REVISE is taken as a CUE. -/
def mapRevise (sender : Nat) (b : CueBody) (s : State) : State :=
  if (findCue sender b.seq s).isSome then s else mapCue sender b s

/-- The cue a STATE lists, with the linger-off and gap the map held for it (R100). -/
def listedCue (sender : Nat) (held : Option Cue) (day : Nat) (c : StateClaim) : Cue :=
  let linger := match held with | some h => h.lingerOff | none => c.offBound
  { owner := sender, seq := c.seq, showAt := c.showAt, minOff := c.minOff, lingerOff := linger,
    offBound := earlierOf day c.offBound linger, gap := match held with | some h => h.gap | none => 0,
    low := c.low, count := c.count }

/-- Entries are made for listed cues, in order. DESIGN CHOICE: of two with one sequence the later replaces the earlier
(log entry 49). -/
def makeAllEntries (inHand : Cue → Bool) : List Cue → State → State
  | [], s => s
  | c :: cs, s => makeAllEntries inHand cs (makeEntries inHand c (s.setMap (withoutCue c.owner c.seq s.map)))

/-- Listed cues are tested for conflict, in order; one already removed is not tested. -/
def testAll : List Cue → State → State
  | [], s => s
  | c :: cs, s => testAll cs (match findCue c.owner c.seq s with | some d => conflictTest d s | none => s)

/-- Listed cues that keep their entries bound their neighbours, in order. -/
def boundAll : List Cue → State → State
  | [], s => s
  | c :: cs, s => boundAll cs (boundNeighbours c s)

/-- The cues of a STATE that are entered: one whose off bound is at or before n has ended (R100). -/
def listedCues (sender : Nat) (l : List StateClaim) (s : State) : List Cue :=
  (l.map fun c => listedCue sender (findCue sender c.seq s) s.day c).filter fun c => !cueEnded s c

/-- The Row Map takes a STATE: the sender's entries are replaced by the cues it lists (R100). -/
def mapState (sender : Nat) (l : List StateClaim) (s : State) : State :=
  let cues := listedCues sender l s
  let s := s.setMap (s.map.filter fun c => !decide (c.owner = sender))
  boundAll cues (testAll cues (makeAllEntries (fun d => cues.any fun c => d.same c) cues s))

/-- The Row Map takes a CUT (R102): an off frame at or before the show withdraws the cue; otherwise its off bound is brought
earlier. -/
def mapCut (sender : Nat) (seq : Byte) (off : Frame) (s : State) : State :=
  match findCue sender seq s with
  | some c =>
    if atOrBefore s.day off c.showAt then cueGone .plain c (s.setMap (withoutCue sender seq s.map))
    else
      s.setMap (s.map.map fun d =>
        if d.isOf sender seq then
          { d with offBound := clampBound s.day s.n d.offBound (earlierOf s.day d.offBound off) } else d)
  | none => s

/-- The item cut (R103). -/
def itemCut (b : Frame) (s : State) : State :=
  s.setMap (s.map.map fun c =>
    if isAfter s.day c.showAt b && isAfter s.day b c.offBound then
      { c with offBound := clampBound s.day s.n c.offBound b } else c)

/-! ### What the Claim List does on the map's work -/

/-- The PLANNED claim is overtaken by a peer's cue (R73). -/
def overtakenBy (s : State) (c : Claim) (d : Cue) : Bool :=
  !decide (d.owner = s.own) && spansShare d.low d.count c.low c.count && isAfter s.day s.n d.minOff &&
  isAfter s.day c.showAt (s.plus d.minOff c.gap)

/-- The test for overtaken PLANNED claims (R73). -/
def overtakenTest (s : State) : State := handBack (fun c => s.map.any (overtakenBy s c)) s

/-- The claim goes on air at this frame boundary, or at this step of the frame number (R15, R78). -/
def goesOnAir (step : Bool) (s : State) (c : Claim) : Bool :=
  decide (c.state = .claimed) && (decide (c.showAt = s.n) || (step && atOrBefore s.day c.showAt s.n))

/-- The claims that go on air become ON_AIR. -/
def airClaims (step : Bool) (s : State) : List Claim :=
  s.claims.map fun c => if goesOnAir step s c then { c with state := .onAir } else c

/-- The ON AIR reports of these claims. DESIGN CHOICE: of several at once, in the order of the Claim List (log entry 53). -/
def onAirReports (n : Frame) (l : List Claim) : List Report := l.map fun c => .onAir c.seq n

/-- Claims go on air and ended cues leave the map (R15, R78, R104). At a step ON AIR stands before OFF (R15); at another
boundary at which one claim goes on air and another ends the order is open (R88), but for one claim's own two reports.
DESIGN CHOICE: the tests are the same whichever way a step goes (log entry 37), and several ON AIR reports stand in the
order of the Claim List (log entry 53). -/
def showAndExpire (step : Bool) (s : State) : State :=
  let airing := s.claims.filter (goesOnAir step s)
  let ended := s.map.filter (cueEnded s)
  let other := fun d : Cue => decide (d.owner = s.own) && !airing.any fun c => decide (d.seq = c.seq)
  let others := ended.filter other
  let open_ := !step && !airing.isEmpty && !others.isEmpty
  let offFirst := open_ && Config.offBeforeOnAir s.openOrders
  let first := if offFirst then others else []
  let rest := if offFirst then ended.filter fun d => !other d else ended
  let s1 : State := { s with openOrders := if open_ then s.openOrders + 1 else s.openOrders }
  let s2 := (s1.setClaims (airClaims step s)).setMap (s.map.filter fun c => !cueEnded s c)
  cuesGone .plain rest (pushReports (onAirReports s.n airing) (cuesGone .plain first s2))

/-- The PLANNED claims fewer than 4 frames before their show are stale while waiting (R74). -/
def staleWaiting (s : State) : State := handBack (fun c => decide (s.dist s.n c.showAt < 4)) s

end Sys2Proof.Machine
end

