-- ==== Sys2Proof/Machine/PacingOps.lean ====
section
/-! DEFINITION. The Pacing Set (08): writes, clamping, activation, the cross-limits, and the PACE command. -/

namespace Sys2Proof.Machine

/-- Reflection class (8.1). -/
inductive Reflect where
  | atOnce
  | atBlock
  | atItem
  deriving DecidableEq, Repr

/-- The reflection class of a parameter (8.1). -/
def Param.reflect : Param → Reflect
  | .r | .dmin | .dmax | .dlin | .g => .atBlock
  | .pi | .y => .atOnce
  | .t | .h | .k | .lmax | .placement => .atItem

/-- The fixed range of a parameter (8.1). -/
def Param.range : Param → Nat × Nat
  | .r => (60, 250)
  | .dmin => (12, 100)
  | .dmax => (12, 250)
  | .dlin => (12, 500)
  | .g => (0, 3)
  | .pi => (10, 200)
  | .y => (25, 250)
  | .t => (25, 250)
  | .h => (0, 50)
  | .k => (0, 8)
  | .lmax => (25, 1500)
  | .placement => (0, 1)

/-- The letter of a parameter in a PACE command (11.2). -/
def paramOfLetter (b : Byte) : Option Param :=
  match b.toNat with
  | 0x52 => some .r
  | 0x4E => some .dmin
  | 0x58 => some .dmax
  | 0x4C => some .dlin
  | 0x47 => some .g
  | 0x49 => some .pi
  | 0x59 => some .y
  | 0x54 => some .t
  | 0x48 => some .h
  | 0x4B => some .k
  | 0x4D => some .lmax
  | 0x50 => some .placement
  | _ => none

/-- The value of one parameter is set. -/
def Params.set {α : Type} (v : Params α) (p : Param) (x : α) : Params α :=
  match p with
  | .r => { v with r := x }
  | .dmin => { v with dmin := x }
  | .dmax => { v with dmax := x }
  | .dlin => { v with dlin := x }
  | .g => { v with g := x }
  | .pi => { v with pi := x }
  | .y => { v with y := x }
  | .t => { v with t := x }
  | .h => { v with h := x }
  | .k => { v with k := x }
  | .lmax => { v with lmax := x }
  | .placement => { v with placement := x }

/-- The value of one parameter. -/
def Params.get {α : Type} (v : Params α) : Param → α
  | .r => v.r
  | .dmin => v.dmin
  | .dmax => v.dmax
  | .dlin => v.dlin
  | .g => v.g
  | .pi => v.pi
  | .y => v.y
  | .t => v.t
  | .h => v.h
  | .k => v.k
  | .lmax => v.lmax
  | .placement => v.placement

/-- A value held to a range. -/
def clampTo (range : Nat × Nat) (x : Nat) : Nat := if x < range.1 then range.1 else if range.2 < x then range.2 else x

/-- The four cross-limits, in the order of R131. -/
def Params.crossLimited (v : Params Nat) : Params Nat :=
  let v := if v.dmax < v.dmin then { v with dmax := v.dmin } else v
  let v := if v.dlin < v.dmax then { v with dlin := v.dmax } else v
  let v := if v.lmax < v.t then { v with lmax := v.t } else v
  if v.t - 1 < v.h then { v with h := v.t - 1 } else v

/-- The cross-limits are enforced on the active set; a change flags PARAM_CLAMPED (R131). -/
def enforceLimits (s : State) : State :=
  let v := s.pacing.active.crossLimited
  (s.modPacing fun u => { u with active := v }).flagIf (decide (v ≠ s.pacing.active)) .paramClamped

/-- The pending values of class AT_ONCE, become active and leave the pending set (R131). -/
def PacingSet.applyAtOnce (u : PacingSet) : PacingSet :=
  { u with active := { u.active with pi := u.pending.pi.getD u.active.pi, y := u.pending.y.getD u.active.y },
           pending := { u.pending with pi := none, y := none } }

/-- The same of class AT_BLOCK. -/
def PacingSet.applyAtBlock (u : PacingSet) : PacingSet :=
  { u with active := { u.active with r := u.pending.r.getD u.active.r, dmin := u.pending.dmin.getD u.active.dmin,
                                     dmax := u.pending.dmax.getD u.active.dmax, dlin := u.pending.dlin.getD u.active.dlin,
                                     g := u.pending.g.getD u.active.g },
           pending := { u.pending with r := none, dmin := none, dmax := none, dlin := none, g := none } }

/-- The same of class AT_ITEM. -/
def PacingSet.applyAtItem (u : PacingSet) : PacingSet :=
  { u with active := { u.active with t := u.pending.t.getD u.active.t, h := u.pending.h.getD u.active.h,
                                     k := u.pending.k.getD u.active.k, lmax := u.pending.lmax.getD u.active.lmax,
                                     placement := u.pending.placement.getD u.active.placement },
           pending := { u.pending with t := none, h := none, k := none, lmax := none, placement := none } }

/-- Whether any value of a class is pending. -/
def PacingSet.anyAtOnce (u : PacingSet) : Bool := u.pending.pi.isSome || u.pending.y.isSome
def PacingSet.anyAtBlock (u : PacingSet) : Bool :=
  u.pending.r.isSome || u.pending.dmin.isSome || u.pending.dmax.isSome || u.pending.dlin.isSome || u.pending.g.isSome
def PacingSet.anyAtItem (u : PacingSet) : Bool :=
  u.pending.t.isSome || u.pending.h.isSome || u.pending.k.isSome || u.pending.lmax.isSome || u.pending.placement.isSome

/-- Pending AT_ONCE values become active (R130, R132). -/
def reflectAtOnce (s : State) : State :=
  if s.pacing.anyAtOnce then enforceLimits (s.modPacing PacingSet.applyAtOnce) else s

/-- Stage 1 of an attempt: unless holding, pending AT_BLOCK values become active (R52). -/
def reflectAtBlock (s : State) : State :=
  if !s.pacing.holding && s.pacing.anyAtBlock then enforceLimits (s.modPacing PacingSet.applyAtBlock) else s

/-- At an item boundary taken: unless holding, pending AT_ITEM values become active (R139). -/
def reflectAtItem (s : State) : State :=
  if !s.pacing.holding && s.pacing.anyAtItem then enforceLimits (s.modPacing PacingSet.applyAtItem) else s

/-- A write (R130): the value is held to the fixed range and enters the pending set; an AT_ONCE value becomes active in the same
act when the set is not holding. -/
def writeParam (p : Param) (x : Nat) (s : State) : State :=
  let v := clampTo p.range x
  let s := (s.modPacing fun u => { u with pending := u.pending.set p (some v) }).flagIf (decide (v ≠ x)) .paramClamped
  if p.reflect = .atOnce ∧ s.pacing.holding = false then reflectAtOnce s else s

/-- The value of a decimal digit character. -/
def digitOf (b : Byte) : Option Nat :=
  if 0x30 ≤ b.toNat ∧ b.toNat ≤ 0x39 then some (b.toNat - 0x30) else none

/-- The number a run of digits makes, leading zeros allowed; none when some character is no digit. -/
def numberOf : Nat → List Byte → Option Nat
  | acc, [] => some acc
  | acc, b :: bs =>
    match digitOf b with
    | some d => numberOf (acc * 10 + d) bs
    | none => none

/-- A well-formed PACE command: one of the twelve letters and one to four digits (R129). -/
def parsePace : List Byte → Option (Param × Nat)
  | letter :: digits =>
    match paramOfLetter letter with
    | some p =>
      if 1 ≤ digits.length ∧ digits.length ≤ 4 then
        match numberOf 0 digits with
        | some x => some (p, x)
        | none => none
      else none
    | none => none
  | [] => none

/-- An open PACE command is discarded as malformed, with TEXT_ERROR, before another control code is taken (R129). -/
def closeCommand (s : State) : State :=
  if s.pacing.command.isSome then (s.modPacing fun u => { u with command := none }).flag .textError else s

/-- The terminator (R129, R173): a well-formed command is a write; a malformed one, or no open command, flags TEXT_ERROR. -/
def endCommand (s : State) : State :=
  match s.pacing.command with
  | some cs =>
    let s := s.modPacing fun u => { u with command := none }
    match parsePace cs with
    | some (p, x) => writeParam p x s
    | none => s.flag .textError
  | none => s.flag .textError

/-- What entry into RESETTING leaves of the Pacing Set (R134). -/
def PacingSet.reset (u : PacingSet) : PacingSet := { u with pending := .nothing, holding := false, command := none }

end Sys2Proof.Machine
end

