-- ==== Sys2Proof/Machine/TextOps.lean ====
section
/-! DEFINITION. The Block Builder (02) and the Script Store (03): words, placement, closes, retraction and loading. -/

namespace Sys2Proof.Machine

/-! ### The Compose Buffer (2.2 to 2.4) -/

/-- The Compose Buffer is empty: no placed word and no character in formation (R20). -/
def BlockBuilder.composeEmpty (t : BlockBuilder) : Bool := t.word.isEmpty && !t.openText.hasWord

/-- The open block closes: it takes its sequence, close frame, cause and item number and enters the Block Queue; the Compose Buffer
is then empty and the idle count stops (R23). -/
def closeBlock (cause : CloseCause) (s : State) : State :=
  let b : Block :=
    { seq := s.text.nextSeq, text := s.text.openText, arrival := s.text.arrival.getD s.n, closeFrame := s.n, cause := cause,
      item := s.item.number, source := .live }
  enterTail b (s.modText fun t =>
    { t with openText := .empty, arrival := none, idleCount := 0, nextSeq := t.nextSeq + 1 })

/-- A word opens the block: its arrival frame becomes the block's a, and the speaker mark is used up (R21, R22). -/
def openBlock (w : TextWord) (arrival : Frame) (s : State) : State :=
  s.modText fun t =>
    { t with openText := Text.opened s.rowWidth t.speakerMark w, speakerMark := false, arrival := some arrival }

/-- A completed word is placed in the open block (R21): it joins the last row, opens row 2, or closes the block FULL and opens a
new one. -/
def placeWord (w : TextWord) (arrival : Frame) (s : State) : State :=
  if s.text.openText.rows.isEmpty then openBlock w arrival s
  else
    match Text.fit s.rowWidth s.text.openText w with
    | .joins => s.modText fun t => { t with openText := t.openText.joined w }
    | .opensRow2 => s.modText fun t => { t with openText := t.openText.withRow w }
    | .full => openBlock w arrival (closeBlock .full s)

/-- The word in formation, if it holds a character, is completed and placed (R18). -/
def completeWord (s : State) : State :=
  if s.text.word.isEmpty then s
  else
    placeWord s.text.word (s.text.wordArrival.getD s.n) (s.modText fun t => { t with word := [], wordArrival := none })

/-- A word is completed by a space or a split: a sentence end in a block of 16 characters or more closes it (R24). -/
def completeAndTest (s : State) : State :=
  if s.text.word.isEmpty then s
  else
    let s' := completeWord s
    if isSentenceEnd s.text.word && decide (16 ≤ s'.text.openText.count) then closeBlock .sentence s' else s'

/-- A close by END, SPEAKER, IDLE or ITEM: the word in formation is completed and placed, and a non-empty block closes
(R25 to R28). -/
def closeOpen (cause : CloseCause) (s : State) : State :=
  let s := completeWord s
  if s.text.composeEmpty then s else closeBlock cause s

/-- Each text unit the Block Builder takes sets the idle count to 0 (R27). -/
def restartIdle (s : State) : State := s.modText fun t => { t with idleCount := 0 }

/-- A character other than the space is added to the word in formation; the first one gives the word its arrival frame, and the
block its a while no word is placed (R18, R20). -/
def addCharacter (c : Byte) (s : State) : State :=
  if s.text.word.isEmpty then
    s.modText fun t =>
      { t with word := [c], wordArrival := some s.n,
               arrival := if t.openText.rows.isEmpty then some s.n else t.arrival }
  else s.modText fun t => { t with word := t.word ++ [c] }

/-- The Block Builder takes a character (R18, R19). -/
def builderCharacter (c : Byte) (s : State) : State :=
  restartIdle
    (if c = spaceByte then completeAndTest s
     else if s.rowWidth ≤ s.text.word.length then addCharacter c (completeAndTest s)
     else addCharacter c s)

/-- The idle-close comparison (R27): the open block closes with cause IDLE. -/
def idleDue (s : State) : Bool := !s.text.composeEmpty && decide (s.pacing.active.pi ≤ s.text.idleCount)

/-- The idle close, when its wait is over (R27). -/
def idleCloseAct (s : State) : State := if idleDue s then closeOpen .idle s else s

/-- Blocks leave the queue as DROPPED, with one report each. -/
def dropReports (why : DropReason) (l : List Block) : List Report := l.map fun b => .dropped why (some b.seq)

/-- The age of a block: the distance from its first-word arrival frame to n (R31). -/
def blockAge (s : State) (b : Block) : Int := s.dist b.arrival s.n

/-- The block's age exceeds the active Lmax. -/
def tooOld (s : State) (b : Block) : Bool := decide ((s.pacing.active.lmax : Int) < blockAge s b)

/-- Ageing at a boundary (R31): blocks too old leave as DROPPED STALE; a hold ends when the head changes (R51). -/
def ageQueue (s : State) : State :=
  let old := s.text.queue.filter (tooOld s)
  if old.isEmpty then s
  else
    let headOld := match s.text.queue with | b :: _ => tooOld s b | [] => false
    let s1 := s.modText fun t => { t with queue := t.queue.filter fun b => !tooOld s b }
    pushReports (dropReports .stale old)
      ((s1.modTimer fun t => { t with hold := t.hold && !headOld }).flag .staleDrop)

/-- The Block Builder empties: the yield discard and the resets clear the speaker mark too (R22). -/
def BlockBuilder.emptied (t : BlockBuilder) : BlockBuilder :=
  { t with word := [], wordArrival := none, openText := .empty, arrival := none, speakerMark := false, idleCount := 0,
           queue := [] }

/-- The yield discard (R29): every queued block is dropped with its report, and then the open block with one that has no
sequence. -/
def yieldDiscard (s : State) : State :=
  let reports := dropReports .yield s.text.queue ++ (if s.text.composeEmpty then [] else [.dropped .yield none])
  pushReports reports ((s.modText BlockBuilder.emptied).modTimer fun t => { t with hold := false })

/-! ### Retraction (2.6) -/

/-- A retraction in a non-empty Compose Buffer (R34). A block that loses its last word takes its prefix with it, and the speaker
mark is set again. -/
def composeRetract (s : State) : State :=
  if s.text.word.isEmpty then
    let left := s.text.openText.retracted
    if left.hasWord then s.modText fun t => { t with openText := left, idleCount := 0 }
    else
      s.modText fun t =>
        { t with openText := .empty, arrival := none, idleCount := 0,
                 speakerMark := t.speakerMark || t.openText.speaker }
  else
    s.modText fun t =>
      { t with word := [], wordArrival := none, idleCount := 0,
               arrival := if t.openText.hasWord then t.arrival else none }

/-- A retraction that reaches the tail of the Block Queue (R35): a block left with no word leaves the queue; a hold on it ends. -/
def queueRetract (s : State) : State :=
  match s.text.queue.getLast? with
  | some b =>
    let left := b.text.retracted
    let rest := s.text.queue.dropLast
    let s' :=
      if left.hasWord then s.modText fun t => { t with queue := rest ++ [{ b with text := left }] }
      else (s.modText fun t => { t with queue := rest }).modTimer fun t => { t with hold := t.hold && !rest.isEmpty }
    pushReport (.revised b.seq) s'
  | none => s

/-- The newest claim that is not withdrawing (R84). -/
def newestClaim (l : List Claim) : Option Claim := (l.filter fun c => c.withdrawal.isNone).getLast?

/-- Only the picked claim leaves the list, with its CUE (R85). -/
def removeOnePlanned (seq : Byte) (s : State) : State :=
  removeUnstarted (PacketKind.isCueOf seq)
    (s.setClaims (s.claims.eraseP fun c => decide (c.seq = seq) && c.isPlanned))

/-- A retraction on a PLANNED claim is an edit in place; a claim left with no word leaves the list (R85). DESIGN CHOICE: the text rows
are edited also beside a revision, which stands, as its REVISE does (log entry 39). -/
def editPlanned (c : Claim) (s : State) : State :=
  let left := c.text.retracted
  let s' :=
    if left.hasWord then updateClaim c.seq (fun c => { c with text := left }) s
    else removeOnePlanned c.seq s
  pushReport (.revised c.seq) s'

/-- A retraction on a claim already sent works on its revision: a REVISE is queued unless one waits, and an emptied claim is
withdrawn (R86). -/
def reviseClaim (c : Claim) (s : State) : State :=
  let left := (c.revision.getD c.text).retracted
  if left.hasWord then
    let s := updateClaim c.seq (fun c => { c with revision := some left }) s
    if (s.line.queue.any fun q => q.kind.isReviseOf c.seq && !q.started) ||
        (s.line.waiting.any fun q => q.kind.isReviseOf c.seq) then s
    else requestPacket (.revise c.seq) s
  else withdraw c.seq c.showAt .none (updateClaim c.seq (fun c => { c with emptied := true }) s)

/-- A retraction handed to the Claim List (R84). -/
def claimRetract (s : State) : State :=
  match newestClaim s.claims with
  | none => pushReport (.late none) s
  | some c =>
    if c.isPlanned then editPlanned c s
    else if (decide (c.state = .sending) || decide (c.state = .claimed)) && decide (5 ≤ s.dist s.n c.showAt) && s.onFloor then
      reviseClaim c s
    else pushReport (.late (some c.seq)) s

/-- A retraction of live text: the Compose Buffer, else the tail of the Block Queue, else the claims (R34 to R36). -/
def liveRetract (s : State) : State :=
  if !s.text.composeEmpty then composeRetract s
  else if !s.text.queue.isEmpty then queueRetract s
  else claimRetract s

/-! ### Loading a script (03) -/

/-- The store holds at most this many blocks and characters (3.2). -/
def storeBlocks : Nat := 64
def storeCharacters : Nat := 4096

/-- A non-empty loading block is stored as it stands (R39). -/
def ScriptStore.storeLoading (u : ScriptStore) : ScriptStore :=
  if u.loadText.hasWord then { u with stored := u.stored ++ [u.loadText], loadText := .empty } else u

/-- The store is full (R41): the loading block is stored, the word is discarded, and loading goes to DISCARDING. -/
def ScriptStore.fill (u : ScriptStore) : ScriptStore := { u.storeLoading with loadWord := [], load := .discarding }

/-- The increase of a placement that opens a block (R41). -/
def ScriptStore.openIncrease (u : ScriptStore) (w : TextWord) : Nat := w.length + (if u.loadMark then 2 else 0)

/-- A loaded word opens a block: it also needs a block position. None when it does not fit the store. -/
def ScriptStore.opens (width : Nat) (u : ScriptStore) (w : TextWord) : Option ScriptStore :=
  if u.storedChars + u.openIncrease w ≤ storeCharacters ∧ u.stored.length < storeBlocks then
    some { u with loadText := Text.opened width u.loadMark w, loadMark := false,
                  storedChars := u.storedChars + u.openIncrease w }
  else none

/-- A loaded word placed under both limits (R39, R41); none when it does not fit the store. -/
def ScriptStore.place (width : Nat) (u : ScriptStore) (w : TextWord) : Option ScriptStore :=
  if u.loadText.rows.isEmpty then u.opens width w
  else
    match Text.fit width u.loadText w with
    | .joins =>
      if u.storedChars + (w.length + 1) ≤ storeCharacters then
        some { u with loadText := u.loadText.joined w, storedChars := u.storedChars + (w.length + 1) }
      else none
    | .opensRow2 =>
      if u.storedChars + w.length ≤ storeCharacters then
        some { u with loadText := u.loadText.withRow w, storedChars := u.storedChars + w.length }
      else none
    | .full => u.storeLoading.opens width w

/-- The loading word, if it holds a character, is completed and placed; a word that does not fit the store fills it and flags
SCRIPT_FULL (R41). -/
def completeLoading (s : State) : State :=
  if s.script.loadWord.isEmpty then s
  else
    match ({ s.script with loadWord := [] } : ScriptStore).place s.rowWidth s.script.loadWord with
    | some u => s.modScript fun _ => u
    | none => (s.modScript ScriptStore.fill).flag .scriptFull

/-- A character is added to the loading word while the store is loading. -/
def addLoading (c : Byte) (s : State) : State :=
  if s.script.load = .loading then s.modScript fun u => { u with loadWord := u.loadWord ++ [c] } else s

/-- The Script Store takes a character (R39, R41). -/
def storeCharacter (c : Byte) (s : State) : State :=
  if s.script.load = .loading then
    if c = spaceByte then completeLoading s
    else if s.rowWidth ≤ s.script.loadWord.length then addLoading c (completeLoading s)
    else addLoading c s
  else s

/-- END-BLOCK while loading (R39): the loading word is placed and a non-empty loading block is stored. -/
def storeEndBlock (s : State) : State :=
  if s.script.load = .loading then (completeLoading s).modScript ScriptStore.storeLoading else s

/-- SPEAKER while loading (R39). -/
def storeSpeaker (s : State) : State :=
  if s.script.load = .loading then (storeEndBlock s).modScript fun u => { u with loadMark := true } else s

/-- RETRACT while loading (R42). -/
def ScriptStore.retracted (u : ScriptStore) : ScriptStore :=
  if !u.loadWord.isEmpty then { u with loadWord := [] }
  else if u.loadText.hasWord then
    let left := u.loadText.retracted
    { u with loadText := left, loadMark := u.loadMark || (!left.hasWord && u.loadText.speaker),
             storedChars := u.storedChars - (u.loadText.count - left.count) }
  else
    match u.stored.getLast? with
    | some b =>
      let left := b.retracted
      { u with stored := if left.hasWord then u.stored.dropLast ++ [left] else u.stored.dropLast,
               storedChars := u.storedChars - (b.count - left.count) }
    | none => u

/-- What entry into RESETTING leaves of the store (R47). -/
def ScriptStore.reset (u : ScriptStore) : ScriptStore :=
  { u with storedChars := u.storedChars - u.loadText.count, loadText := .empty, loadWord := [], loadMark := false,
           load := .notLoading, pointer := 1 }

/-- The block at the pointer is released into the Block Queue (R45). -/
def releaseBlock (t : Text) (s : State) : State :=
  let b : Block :=
    { seq := s.text.nextSeq, text := t, arrival := s.n, closeFrame := s.n, cause := .finish, item := s.item.number,
      source := .script }
  enterTail b (s.modText fun t => { t with nextSeq := t.nextSeq + 1 })

/-- The pointer NEXT releases from: past the last block with the loop flag on it returns to 1 (R43, R44). -/
def ScriptStore.target (u : ScriptStore) : Nat :=
  if u.stored.length < u.pointer ∧ u.loop = true then 1 else u.pointer

/-- NEXT (R44): BUSY while loading; SCRIPT END with nothing to release; otherwise the block at the pointer is released. -/
def storeNext (s : State) : State :=
  if s.script.load = .notLoading then
    match s.script.stored[s.script.target - 1]? with
    | some t => releaseBlock t (s.modScript fun u => { u with pointer := u.target + 1 })
    | none => pushReport .scriptEnd s
  else pushReport .busy s

/-- The Script Store takes text units while it is loading or discarding (R17). -/
def State.loadingScript (s : State) : Bool := !decide (s.script.load = .notLoading)

end Sys2Proof.Machine
end

