-- ==== Sys2Proof/Machine/TimerOps.lean ====
section
/-! DEFINITION. The Cue Timer (04): the gate, the ten stages of an attempt, and attempts made while they can be. -/

namespace Sys2Proof.Machine

/-- Lead constants (00_scope 3.6). -/
def planningLead : Nat := 6
def claimHorizon : Int := 500

/-- Claims in states other than ON_AIR. -/
def notOnAir (l : List Claim) : Nat := (l.filter fun c => !decide (c.state = .onAir)).length

/-- The gate of the Cue Timer is open (R49). -/
def gateOpen (s : State) : Bool :=
  decide (s.station.mode = .active) && s.onFloor && decide (s.claims.length < 4) && decide (notOnAir s.claims < 2) &&
  decide (s.line.queue.length < classPlaces)

/-- Stage 2: the low row of the chosen rows (R54). -/
def chooseLow (s : State) (k : Nat) : Nat :=
  if s.pacing.active.placement = 1 ∧ k + 1 ≤ s.displayRows then 2 else 1

/-- The candidate whose distance from n is greatest (R55). -/
def latest (day n : Nat) : Frame → List Frame → Frame
  | best, [] => best
  | best, f :: fs => latest day n (if frameDist day n best < frameDist day n f then f else best) fs

/-- The candidates of stage 3 beside the planning lead: entries on the chosen rows still firm, and own claims not yet in the map
(R55). -/
def showCandidates (s : State) (low k : Nat) : List Frame :=
  ((s.map.filter fun d => spansShare d.low d.count low k && isAfter s.day s.n d.minOff).map fun d =>
    s.plus d.minOff s.pacing.active.g) ++
  ((s.claims.filter fun c => !c.echoed && spansShare c.low c.count low k).map fun c =>
    s.plus c.minOff s.pacing.active.g)

/-- Stage 3: the earliest show e (R55). -/
def earliestShow (s : State) (low k : Nat) : Frame :=
  latest s.day s.n (s.plus s.n planningLead) (showCandidates s low k)

/-- Stage 6: the pace state after a lag (R59). -/
def nextPace (p : Params Nat) (pace : Pace) (lag : Int) : Pace :=
  match pace with
  | .normal => if (p.t : Int) < lag then .catchUp else .normal
  | .catchUp => if lag < (p.t : Int) - (p.h : Int) then .normal else .catchUp

/-- Stage 7: the base duration c × F × 10 / r, rounded up (R60). -/
def baseDuration (count fps r : Nat) : Nat := (count * fps * 10 + (r - 1)) / r

/-- Stage 8: compression (R61). -/
def compressed (p : Params Nat) (pace : Pace) (lag : Int) (d0 : Nat) : Int :=
  match pace with
  | .normal => d0
  | .catchUp => (d0 : Int) - ((lag - (p.t : Int)).toNat * p.k / 8 : Nat)

/-- Stage 9: the clamp to Dmin..Dmax (R62). -/
def clampDuration (p : Params Nat) (d1 : Int) : Nat :=
  if d1 < p.dmin then p.dmin else if (p.dmax : Int) < d1 then p.dmax else d1.toNat

/-- Stage 10: the claim record of a planned block (R63). -/
def plannedClaim (s : State) (b : Block) (low : Nat) (e : Frame) (d : Nat) : Claim :=
  { seq := b.seq, low := low, count := b.text.rows.length, showAt := e, minOff := s.plus e d,
    lingerOff := s.plus e s.pacing.active.dlin, gap := s.pacing.active.g, text := b.text, source := b.source, item := b.item,
    arrival := b.arrival, closeFrame := b.closeFrame, cause := b.cause, state := .planned, revision := none,
    withdrawal := none, emptied := false }

/-- The head block leaves the Block Queue. -/
def takeHead (s : State) : State := s.modText fun t => { t with queue := t.queue.drop 1 }

/-- The stages of an attempt from stage 2 on, the AT_BLOCK values being in force (R54 to R63): hold, drop or plan. DESIGN
CHOICE: the new claim stands at the end of the list whatever its show (log entry 47). -/
def planBlock (b : Block) (s : State) : State :=
  let p := s.pacing.active
  let low := chooseLow s b.text.rows.length
  let e := earliestShow s low b.text.rows.length
  let lag := s.dist b.arrival e
  if claimHorizon < s.dist s.n e then s.modTimer fun t => { t with hold := true }
  else if (p.lmax : Int) < lag then pushReport (.dropped .stale (some b.seq)) ((takeHead s).flag .staleDrop)
  else
    let pace := nextPace p s.timer.pace lag
    let d := clampDuration p (compressed p pace lag (baseDuration b.text.count s.fps p.r))
    let s1 := (takeHead s).modTimer fun t => { t with pace := pace }
    requestPacket (.cue b.seq) (s1.setClaims (s1.claims ++ [plannedClaim s b low e d]))

/-- An attempt on the head block (R50, R52). -/
def attempt (s : State) : State :=
  match s.text.queue with
  | b :: _ => planBlock b (reflectAtBlock s)
  | [] => s

/-- An attempt is to be made: the gate is open, a block is queued and no hold stands (R50). -/
def attemptDue (s : State) : Bool := gateOpen s && !s.text.queue.isEmpty && !s.timer.hold

/-- Attempts are made while they can be, at most `k` of them (R50). -/
def attempts : Nat → State → State
  | 0, s => s
  | k + 1, s => if attemptDue s then attempts k (attempt s) else s

end Sys2Proof.Machine
end

