-- ==== Sys2Proof/Machine/FloorOps.lean ====
section
/-! DEFINITION. The floor's packets and waits (07), item boundaries (08), the entries into MUTE, RESETTING and JOINING (10), and the work
every act ends with. -/

namespace Sys2Proof.Machine

/-! ### The view (R110 to R115) -/

/-- Whether a plain TAKE from a station changes nothing, makes it holder, makes it pending successor, or is lost (R110). -/
inductive TakeOutcome where
  | unchanged
  | holds
  | pends
  | lost
  deriving DecidableEq, Repr

/-- The outcome of a plain TAKE in the view (R110). -/
def takeOutcome (b : Nat) (f : Floor) : TakeOutcome :=
  if f.holder = some b ∨ f.successor = some b then .unchanged
  else if f.holder = none ∧ f.successor = none then .holds
  else if f.successor = none then .pends
  else .lost

/-- A peer's plain TAKE (R110, R111): the view changes, and a LIVE station enters YIELDING. -/
def peerPlainTake (b : Nat) (s : State) : State :=
  let s :=
    match takeOutcome b s.floor with
    | .holds => setHolder (some b) s
    | .pends => setSuccessor (some b) s
    | .unchanged => s
    | .lost => s
  if s.floor.state = .live then enterYielding s else s

/-- A bid becomes pending: the bid count starts at 0 (R111, R118). -/
def startBidWait (s : State) : State :=
  s.modFloor fun u => { u with bidCount := 0, bidRunning := true, takeEchoed := true }

/-- The view after the station's own plain TAKE (R110); when it names the station holder, R109 acts. -/
def ownTakeView (s : State) : State :=
  match takeOutcome s.own s.floor with
  | .holds => holdFloor s
  | .pends => setSuccessor (some s.own) s
  | .unchanged => if s.floor.holder = some s.own then holdFloor s else s
  | .lost => s

/-- The echo of the station's own plain TAKE (R111): LIVE, pending, or lost. -/
def ownPlainTake (s : State) : State :=
  let s := ownTakeView s
  if s.floor.state = .bidding then
    if s.floor.successor = some s.own then startBidWait s else loseBid s
  else s

/-- What a forced take by a peer does to the claims (R83): CLAIMED claims are withdrawn at their shows. DESIGN CHOICE: in
claim order (log entry 48). -/
def withdrawClaimed : List Claim → State → State
  | [], s => s
  | c :: cs, s =>
    withdrawClaimed cs
      (if c.state = .claimed ∧ c.withdrawal = none then withdraw c.seq c.showAt .none s else s)

/-- The Claim List on a forced take by a peer (R83). -/
def forcedOffClaims (s : State) : State :=
  let s := dropPlanned (fun _ => true) s
  withdrawClaimed s.claims s

/-- A forced TAKE (R113). -/
def forcedTakeView (b : Nat) (s : State) : State :=
  let s := setSuccessor none s
  if b = s.own then holdFloor s
  else
    let s := setHolder (some b) s
    match s.floor.state with
    | .live | .yielding =>
      forcedOffClaims (removeUnstarted PacketKind.isYield
        (setFloor .idle (s.modFloor fun u => { u with yieldOwed := false })))
    | .bidding => if s.floor.takeEchoed then loseBid s else s
    | .idle => s

/-- The Peer Table entry of a station. -/
def peerEntry (p : Nat) (s : State) : Peer := s.line.peers.getD (p - 1) Peer.unheardOf

/-- The Peer Table entry of a station is changed. -/
def setPeer (p : Nat) (f : Peer → Peer) (s : State) : State :=
  s.modLine fun l => { l with peers := l.peers.set (p - 1) (f (l.peers.getD (p - 1) Peer.unheardOf)) }

/-- The holder a YIELD gives: none when it names none or a SILENT station (R112). -/
def yieldedTo (q : Option Nat) (s : State) : Option Nat :=
  match q with
  | some p => if (peerEntry p s).presence = .silent then none else some p
  | none => none

/-- A YIELD naming `q` (R112); `echo` when it is the station's own, which leaves it IDLE and so never the holder (R108, R122). -/
def yieldView (echo : Bool) (q : Option Nat) (s : State) : State :=
  let h := yieldedTo q s
  let s := setSuccessor none s
  if echo then
    let s := setHolder (if h = some s.own then none else h) s
    if s.onFloor then leaveFloor s else setFloor .idle (s.modFloor fun u => { u with yieldOwed := false })
  else if h = some s.own then holdFloor s
  else
    let s := setHolder h s
    match s.floor.state with
    | .bidding => if s.floor.takeEchoed then loseBid s else s
    | .live | .yielding => leaveFloor s
    | .idle => s

/-- The view on the silence of a peer (R114). -/
def silenceView (p : Nat) (s : State) : State :=
  if s.floor.holder = some p then
    let next := s.floor.successor
    let s := setSuccessor none s
    if next = some s.own then holdFloor s else setHolder next s
  else if s.floor.successor = some p then setSuccessor none s
  else s

/-- A present peer's unheard count has reached 3F (R157). -/
def peerDue (p : Nat) (s : State) : Bool :=
  isStation p && decide (p ≠ s.own) && decide ((peerEntry p s).presence = .present) && decide (3 * s.fps ≤ (peerEntry p s).unheard)

/-- The peer is marked SILENT and the Floor Controller acts on it (R157, R114). -/
def peerSilentAct (p : Nat) (s : State) : State :=
  if peerDue p s then silenceView p (setPeer p (fun e => { e with presence := .silent }) s) else s

/-- The same for every station number listed. -/
def silenceAll : List Nat → State → State
  | [], s => s
  | p :: ps, s => silenceAll ps (peerSilentAct p s)

/-- The station numbers. -/
def stationNumbers : List Nat := [1, 2, 3, 4, 5, 6, 7, 8, 9, 10, 11, 12, 13, 14, 15, 16]

/-- The holder taken from a STATE (R115): the sender declares LIVE or YIELDING and the holder view is none. -/
def holderFromState (p : Nat) (s : State) : State :=
  if s.floor.holder = none ∧ ((peerEntry p s).floor = some .live ∨ (peerEntry p s).floor = some .yielding) then
    let s := setHolder (some p) s
    if s.floor.successor = some p then setSuccessor none s else s
  else s

/-! ### Bids, yields and parking (R116 to R124) -/

/-- A bid is made (R116): the floor state becomes BIDDING and a plain TAKE is queued. -/
def bid (s : State) : State :=
  requestPacket (.take false)
    (setFloor .bidding (s.modFloor fun u => { u with bidCount := 0, bidRunning := false, takeEchoed := false }))

/-- The auto-take test (R117). -/
def autoTakeDue (s : State) : Bool :=
  s.straps.auto && decide (s.station.mode = .active) && decide (s.floor.state = .idle) && !s.text.queue.isEmpty &&
  decide (s.floor.holder = none)

def autoTake (s : State) : State := if autoTakeDue s then bid s else s

/-- The bid wait is over (R118). -/
def bidDue (s : State) : Bool :=
  decide (s.floor.state = .bidding) && s.floor.bidRunning && decide (s.pacing.active.y + s.fps ≤ s.floor.bidCount)

/-- The bid wait's end: a forced TAKE is queued and the count stops (R118). -/
def bidExpiryAct (s : State) : State :=
  if bidDue s then requestPacket (.take true) (s.modFloor fun u => { u with bidRunning := false }) else s

/-- The yield deadline is reached (R121). -/
def deadlineDue (s : State) : Bool :=
  decide (s.floor.state = .yielding) && !s.floor.yieldOwed && decide (s.pacing.active.y ≤ s.floor.yieldCount)

/-- The yield deadline (R121, R29): the text is discarded and the yield becomes owed. -/
def deadlineAct (s : State) : State :=
  if deadlineDue s then (yieldDiscard s).modFloor fun u => { u with yieldOwed := true } else s

/-- The Compose Buffer and the Block Queue are both empty. -/
def nothingLeft (s : State) : Bool := s.text.composeEmpty && s.text.queue.isEmpty

/-- The yield becomes owed when a YIELDING station has no text left (R120). -/
def oweYield (s : State) : State :=
  if s.floor.state = .yielding ∧ s.floor.yieldOwed = false ∧ nothingLeft s = true then
    s.modFloor fun u => { u with yieldOwed := true }
  else s

/-- A park owed is made when the floor state is IDLE (R124). -/
def parkDue (s : State) : Bool := s.floor.parkOwed && decide (s.floor.state = .idle)

/-- The station parks (R124). -/
def parkNow (s : State) : State :=
  (s.modFloor fun u => { u with parkOwed := false }).modStation fun u => { u with mode := .parked }

def parkAct (s : State) : State := if parkDue s then parkNow s else s

/-! ### Item boundaries (08) -/

/-- A boundary within 2 frames of the last one taken is its duplicate (R137). -/
def isDuplicate (s : State) (b : Frame) : Bool :=
  match s.item.lastBoundary with
  | some a => decide (-2 ≤ s.dist a b) && decide (s.dist a b ≤ 2)
  | none => false

/-- The station takes an item boundary (R139): the pace state becomes NORMAL (R66), but in MUTE, where it keeps its value (R69).
DESIGN CHOICE: R69 is followed in MUTE (log entry 38). -/
def takeBoundary (b : Frame) (number : Byte) (s : State) : State :=
  let s := closeOpen .item s
  let s := s.modItem fun i => { i with number := number, lastBoundary := some b }
  let s := (reflectAtItem s).modTimer fun t =>
    { t with pace := if s.station.mode = .mute then t.pace else .normal }
  itemCut b s

/-- A peer's boundary drops the station's own WAITING or QUEUED request (R138). -/
def dropOwnItem (s : State) : State :=
  if s.item.own = .waiting ∨ s.item.own = .queued then
    (removeUnstarted PacketKind.isItem s).modItem fun i => { i with own := .none }
  else s

/-- An ITEM is taken (R137); `echo` when it is the station's own. -/
def takeItem (echo : Bool) (b : Frame) (number : Byte) (s : State) : State :=
  if isDuplicate s b then s
  else
    let s := if echo then s else dropOwnItem s
    takeBoundary b number s

/-! ### Entry into and end of modes (10) -/

/-- Entry into MUTE (R147, R164): the queue and the waiting requests are emptied, the floor is left, and the own ITEM ends.
DEDUCED: what claims keep of withdrawals and revisions (log entry 17). -/
def enterMute (s : State) : State :=
  let s := s.modStation fun u => { u with mode := .mute }
  let s := s.modLine fun l => { l with queue := [], waiting := [] }
  let s := s.modItem fun i => { i with own := .none }
  let s := if s.onFloor then leaveFloorClaims s else s
  let s := setFloor .idle s
  let s := if s.floor.holder = some s.own then setHolder none s else s
  s.modFloor fun u =>
    { u with yieldOwed := false, parkOwed := false, bidRunning := false, takeEchoed := false }

/-- The Transmit Queue is emptied of every packet that has not started; one in transmission completes or is removed at its stop
(R159). -/
def LineUnit.emptied (l : LineUnit) : LineUnit :=
  { l with queue := (l.queue.filter QPacket.started).map fun q => { q with mark := .inFlight }, waiting := [] }

/-- A CUT of the sequence is queued and has not started. -/
def hasQueuedCut (l : LineUnit) (seq : Byte) : Bool :=
  l.queue.any fun q => !q.started && (match q.kind with | .cut k _ => k == seq | _ => false)

/-- Entry into RESETTING, the Line Interface: a claim whose CUT is removed has its withdrawal cleared (R163). -/
def resetLine (s : State) : State :=
  (s.setClaims (s.claims.map fun c => if hasQueuedCut s.line c.seq then { c with withdrawal := none } else c)).modLine
    LineUnit.emptied

/-- Entry into RESETTING, the claims that stay: PLANNED and SENDING ones leave, revisions are abandoned (R89). -/
def resetKept (l : List Claim) : List Claim := (l.filter Claim.echoed).map fun c => { c with revision := none }

/-- The CUT that entry into RESETTING queues for a claim: its sequence and off frame (R89). -/
def resetCut (s : State) (c : Claim) : Option (Byte × Frame) :=
  match c.state with
  | .planned => none
  | .sending => some (c.seq, c.showAt)
  | .claimed => if c.withdrawal.isNone then some (c.seq, c.showAt) else none
  | .onAir => if c.withdrawal.isNone then some (c.seq, s.plus s.n 4) else none

/-- CUTs are queued on entry into RESETTING, each withdrawing the claim it is for, if the list still holds it (R89). -/
def queueResetCuts : List (Byte × Frame) → State → State
  | [], s => s
  | (seq, off) :: rest, s =>
    queueResetCuts rest
      (queueCut seq off .entryCut (updateClaim seq (fun c => { c with withdrawal := some off }) s))

/-- Entry into RESETTING, the Claim List (R89). DESIGN CHOICE: the CUTs are queued in claim order, whatever the claims' states
(log entry 55). -/
def resetClaims (s : State) : State := queueResetCuts (s.claims.filterMap (resetCut s)) (s.setClaims (resetKept s.claims))

/-- Entry into RESETTING, the Floor Controller (R127, R163). DESIGN CHOICE: a bid that it ends makes no TAKE LOST
(log entry 54). -/
def resetFloor (s : State) : State :=
  let s := setFloor .idle s
  let s := if s.floor.holder = some s.own then setHolder none s else s
  s.modFloor fun u =>
    { u with yieldOwed := false, parkOwed := false, bidRunning := false, takeEchoed := false }

/-- The own ITEM on entry into RESETTING: NONE, unless its packet is in transmission (R136, R142). -/
def resetItem (s : State) : State :=
  if s.item.own = .sending then s else s.modItem fun i => { i with own := .none }

/-- Entry into RESETTING (R163). -/
def enterResetting (s : State) : State :=
  let s := s.modStation fun u => { u with mode := .resetting, resetCount := 0, parkRemembered := false }
  let s := s.modReport ReportUnit.entered
  let s := resetClaims (resetLine s)
  let s := s.modText BlockBuilder.emptied
  let s := s.modScript ScriptStore.reset
  let s := s.modTimer fun _ => { pace := .normal, hold := false }
  let s := resetFloor s
  resetItem (s.modPacing PacingSet.reset)

/-- RESETTING ends and the station enters JOINING (R163, R89, R107, R127, R159). -/
def endResetting (s : State) : State :=
  let s := ((s.setClaims []).setMap []).modLine LineUnit.emptied
  let s := setSuccessor none (setHolder none s)
  s.modStation fun u => { u with mode := .joining, joinCount := 0 }

/-- RESETTING has nothing left to wait for (R163): no withdrawing claim, no CUT queued on entry, no transmission. -/
def drained (s : State) : Bool :=
  decide (s.station.mode = .resetting) && !(s.claims.any fun c => c.withdrawal.isSome) &&
  !(s.line.queue.any fun q => decide (q.mark = .entryCut)) && !s.transmitting

def drainAct (s : State) : State := if drained s then endResetting s else s

/-- The reset count has reached 2F (R163). -/
def resetCountDue (s : State) : Bool := decide (s.station.mode = .resetting) && decide (2 * s.fps ≤ s.station.resetCount)

def resetCountAct (s : State) : State := if resetCountDue s then endResetting s else s

/-- The join count has reached 2F (R161). -/
def joinDue (s : State) : Bool := decide (s.station.mode = .joining) && decide (2 * s.fps ≤ s.station.joinCount)

/-- The join wait's end: PARKED when a park is remembered, ACTIVE otherwise (R161). -/
def joinAct (s : State) : State :=
  if joinDue s then
    s.modStation fun u =>
      { u with mode := if u.parkRemembered then .parked else .active, parkRemembered := false }
  else s

/-! ### What every act ends with -/

/-- The work the manual asks for "in the same act": a park owed (R124), waiting requests (R154), attempts (R50), the yield
owed (R120), the auto-take test (R117) and the end of RESETTING (R163). DESIGN CHOICE: the attempts come after all that
the act's event does, two closes of one event among it (log entry 46). -/
def settle (s : State) : State :=
  let s := enterWaiting (parkAct s)
  let s := attempts s.text.queue.length s
  drainAct (autoTake (queueYield (oweYield s)))

/-- The FLOOR report of an act that changed the floor state or the holder view, with both as they stand after it (R125). -/
def floorReport (s : State) : State :=
  if s.floor.reportDue then
    pushReport (.floor s.floor.state s.floor.holder) (s.modFloor fun u => { u with reportDue := false })
  else s

/-- The end of an act. -/
def finish (s : State) : State := floorReport (settle s)

end Sys2Proof.Machine
end

