-- ==== Sys2Proof/Machine/BoundaryOps.lean ====
section
/-! DEFINITION. The Reference Unit's frame boundary (01) and the work every block does at it. The order in which the blocks act is log
entry 5. -/

namespace Sys2Proof.Machine

/-! ### Times of the frame period (R4, R6, R8) -/

/-- A pulse this long after the reference instant makes a boundary: half a period or more (R4). -/
def makesBoundary (s : State) (elapsed : Moment) : Bool := decide (s.period ≤ 2 * elapsed)

/-- A pulse in tolerance: between 0.98P and 1.02P after an instant that a pulse set (R4). -/
def inTolerance (s : State) (elapsed : Moment) : Bool :=
  s.ref.setByPulse && decide (98 * s.period ≤ 100 * elapsed) && decide (100 * elapsed ≤ 102 * s.period)

/-- The moment of the flywheel's expiry: 1.02P after the reference instant (R6). -/
def expiryMoment (s : State) : Moment := s.ref.refInstant + 102 * s.period / 100

/-! ### Counting (R1, R10 to R12, R14) -/

/-- The frame number counting alone gives. -/
def countedFrame (s : State) : Frame := s.plus s.n 1

/-- The timecode load this boundary applies. -/
def loadDue (s : State) : Option Frame := if s.anchoredStrap then s.ref.pendingLoad else none

/-- The frame number this boundary begins (R1, R10). -/
def nextFrame (s : State) : Frame := (loadDue s).getD (countedFrame s)

/-- The boundary is a step of the frame number (R10). -/
def isStep (s : State) : Bool := decide (s.dist (countedFrame s) (nextFrame s) ≠ 0)

/-- A distance of more than one frame either way flags TIME_STEP (R10, R13). -/
def farStep (d : Int) : Bool := decide (1 < d) || decide (d < -1)

/-- Timecode has been lost: the silence count is 10 while the status is ANCHORED (R11). -/
def timecodeLostDue (s : State) : Bool :=
  s.anchoredStrap && decide (10 ≤ s.ref.tcSilence) && decide (s.ref.status = .anchored)

/-- Loss of timecode (R11). -/
def timecodeLostAct (s : State) : State :=
  if timecodeLostDue s then
    s.modRef fun u => { u with status := if u.peerSilence < 3 * s.fps then .following else .drifting }
  else s

/-- Anchored peers have been silent for 3F boundaries while FOLLOWING (R14). -/
def peerTimeDue (s : State) : Bool := decide (3 * s.fps ≤ s.ref.peerSilence) && decide (s.ref.status = .following)

/-- Loss of peer time (R14). -/
def peerTimeAct (s : State) : State :=
  if peerTimeDue s then s.modRef fun u => { u with status := .drifting } else s

/-- The Reference Unit at a boundary (R1, R10, R12): the new n, the load, and the silence counts. -/
def countFrame (s : State) : State :=
  let loaded := (loadDue s).isSome
  let far := loaded && farStep (s.dist (countedFrame s) (nextFrame s))
  (s.modRef fun u =>
    { u with n := nextFrame s,
             pendingLoad := if loaded then none else u.pendingLoad,
             tcSilence := if loaded then 0 else min 10 (u.tcSilence + 1),
             status := if loaded then .anchored else u.status,
             peerSilence := if u.sourceSeen then u.peerSilence else min (3 * s.fps) (u.peerSilence + 1),
             sourceSeen := false }).flagIf far .timeStep

/-- The guard window closes at a boundary, which is then an idle point if the line is IDLE (R8, R148); a packet being received
has met one boundary more (R13). -/
def lineBoundary (t : Moment) (s : State) : State :=
  (s.modLine fun l =>
    { l with idlePoint := if s.ref.guardOpen && l.idle then t else l.idlePoint,
             receiving := l.receiving.map fun k => k + 1 }).modRef fun u => { u with guardOpen := false }

/-! ### Waits (R3) -/

/-- A present peer's count of boundaries unheard rises; the station's own entry does not count (R157). -/
def tickPeer (own : Nat) (i : Nat) (p : Peer) : Peer :=
  if p.presence = .present ∧ i + 1 ≠ own then { p with unheard := p.unheard + 1 } else p

/-- Every present peer's count of boundaries unheard rises by one (R157). -/
def tickPeers (own : Nat) : Nat → List Peer → List Peer
  | _, [] => []
  | i, p :: ps => tickPeer own i p :: tickPeers own (i + 1) ps

/-- The Line Interface's counts (R145, R156, R157). -/
def tickLine (s : State) : State :=
  s.modLine fun l =>
    { l with phase := l.phase + 1, mismatch := l.mismatch - 1, peers := tickPeers s.own 0 l.peers }

/-- The station's counts (R161, R163). -/
def tickStation (s : State) : State :=
  s.modStation fun u =>
    { u with joinCount := if u.mode = .joining then u.joinCount + 1 else u.joinCount,
             resetCount := if u.mode = .resetting then u.resetCount + 1 else u.resetCount }

/-- The Floor Controller's counts (R118, R119). -/
def tickFloor (s : State) : State :=
  s.modFloor fun u =>
    { u with yieldCount := if u.state = .yielding ∧ u.yieldOwed = false then u.yieldCount + 1 else u.yieldCount,
             bidCount := if u.state = .bidding ∧ u.bidRunning = true then u.bidCount + 1 else u.bidCount }

/-- The idle count, while the Compose Buffer is non-empty (R27). -/
def tickIdle (s : State) : State :=
  s.modText fun t => { t with idleCount := if t.composeEmpty then t.idleCount else t.idleCount + 1 }

/-! ### The STATE phase (R156) -/

/-- A STATE becomes due: n is at the station's phase, or the phase count has reached F (R156). -/
def stateIsDue (s : State) : Bool :=
  decide (s.n % s.fps = (s.own - 1) % s.fps) || decide (s.fps ≤ s.line.phase)

/-- A queued STATE is replaced by one queued anew (R156). DEDUCED: one that stopped on a mismatch counts as not started
(log entry 44). -/
def replaceState (q : QPacket) : QPacket := if q.kind = .state then .fresh .state else q

/-- A STATE is queued (R156): one in transmission serves, and one queued or waiting is replaced. DESIGN CHOICE: a waiting request so
replaced keeps its turn (log entry 57). -/
def queueState (s : State) : State :=
  if s.line.queue.any fun q => q.kind.isState && q.started then s
  else if hasPacket PacketKind.isState s then
    s.modLine fun l => { l with queue := l.queue.map replaceState, waiting := l.waiting.map replaceState }
  else requestPacket .state s

/-- A due STATE restarts the phase count, and is queued in ACTIVE or PARKED (R156). -/
def stateDueAct (s : State) : State :=
  if stateIsDue s then
    let s := s.modLine fun l => { l with phase := 0 }
    if s.station.mode = .active ∨ s.station.mode = .parked then queueState s else s
  else s

/-! ### The boundary -/

/-- What stands before the blocks act: the Reference Unit's work and the waits that rise with it. -/
def beginFrame (t : Moment) (s : State) : State :=
  tickFloor (tickStation (tickLine (peerTimeAct (timecodeLostAct (lineBoundary t (countFrame s))))))

/-- The Block Builder at a boundary (R31, R27): ageing, then the idle count and its comparison. -/
def builderBoundary (s : State) : State := idleCloseAct (tickIdle (ageQueue s))

/-- A frame boundary at moment `t` (R1): every block acts on it, and the work it sets going follows (log entry 5). -/
def boundary (t : Moment) (s : State) : State :=
  let step := isStep s
  let s := showAndExpire step (beginFrame t s)
  let s := staleWaiting s
  let s := silenceAll stationNumbers s
  let s := builderBoundary (deadlineAct s)
  let s := stateDueAct (bidExpiryAct s)
  let s := s.modTimer fun u => { u with hold := false }
  finish (joinAct (resetCountAct s))

/-! ### A step between boundaries (R13, R15) -/

/-- The frame number is set between two boundaries: a phase load (R13), and a step when it changes n (R15). -/
def phaseLoad (f : Frame) (s : State) : State :=
  let d := s.dist s.n f
  let s := (s.modRef fun u => { u with n := f, status := .following }).flagIf (farStep d) .timeStep
  if d = 0 then s else showAndExpire true s

end Sys2Proof.Machine
end

