-- ==== Sys2Proof/Machine/LineOps.lean ====
section
/-! DEFINITION. The Line Interface (09): hearing a packet, delivering it, gaining the line, the echo and the stop. -/

namespace Sys2Proof.Machine

/-! ### Configuration (R145) -/

/-- A row span lies within the station's display rows. -/
def spanInside (s : State) (low count : Nat) : Bool := decide (1 ≤ low) && decide (low + count - 1 ≤ s.displayRows)

/-- A frame number of the station's day. -/
def inDay (s : State) (f : Frame) : Bool := decide (f < s.day)

/-- A CUE or REVISE that fits the station's configuration. -/
def cueFits (s : State) (b : CueBody) : Bool :=
  spanInside s b.low b.count && (b.rows.all fun r => decide (r.length ≤ s.rowWidth)) && inDay s b.showAt &&
  inDay s b.minOff && inDay s b.lingerOff

/-- A STATE that fits it. -/
def stateFits (s : State) (b : StateBody) : Bool :=
  decide (b.rate = s.fps) && decide (b.displayRows = s.displayRows) && decide (b.width = s.rowWidth) && inDay s b.frame &&
  b.claims.all fun c => spanInside s c.low c.count && inDay s c.showAt && inDay s c.minOff && inDay s c.offBound

/-- A packet without a configuration mismatch (R145). -/
def packetFits (s : State) : Packet → Bool
  | .cue b => cueFits s b
  | .revise b => cueFits s b
  | .cut _ off => inDay s off
  | .item b _ => inDay s b
  | .state b => stateFits s b
  | .take _ => true
  | .yield _ => true

/-- A configuration mismatch: CONFIG_MISMATCH is flagged and the mismatch count set to 3F (R145). -/
def mismatchAct (s : State) : State :=
  (s.modLine fun l => { l with mismatch := 3 * s.fps }).flag .configMismatch

/-! ### Hearing (R143 to R147) -/

/-- A reception ends. -/
def endReception (s : State) : State := s.modLine fun l => { l with receiving := none }

/-- A bad packet is discarded with LINE_FAULT (R143, R144). -/
def discardPacket (s : State) : State := (endReception s).flag .lineFault

/-- A valid packet marks its sender: last sender heard, PRESENT, count 0 (R146). -/
def markHeard (sender : Nat) (s : State) : State :=
  setPeer sender (fun e => { e with presence := .present, unheard := 0 })
    (s.modLine fun l => { l with lastSender := sender })

/-- A packet heard (R144 to R147): discarded when not valid; one with the station's own number shows a twin; otherwise its
sender is marked, and it is delivered when it fits the station's configuration. -/
def hear (sender : Nat) (p : Packet) (deliver : State → State) (s : State) : State :=
  if packetValid sender p then
    let s := endReception s
    if sender = s.own then if s.station.mode = .mute then s else enterMute s
    else
      let s := markHeard sender s
      if packetFits s p then deliver s else mismatchAct s
  else discardPacket s

/-! ### Delivery (R146) -/

/-- The map's work on a packet ends with no entry at or before n (R96). -/
def takeCue (sender : Nat) (b : CueBody) (s : State) : State := overtakenTest (expireCues (mapCue sender b s))

def takeRevise (sender : Nat) (b : CueBody) (s : State) : State := overtakenTest (expireCues (mapRevise sender b s))

def takeCut (sender : Nat) (seq : Byte) (off : Frame) (s : State) : State := mapCut sender seq off s

/-- The STATE's sender is a time source (R12): it reports ANCHORED, and no lower-numbered peer is present and anchored. -/
def isTimeSource (sender : Nat) (b : StateBody) (s : State) : Bool :=
  decide (sender ≠ s.own) && decide (b.status = .anchored) &&
  !(stationNumbers.any fun p =>
    decide (p < sender) && decide (p ≠ s.own) && decide ((peerEntry p s).presence = .present) &&
    decide ((peerEntry p s).status = some .anchored))

/-- A time source zeroes the peer-time silence count, and is a phase load unless the status is ANCHORED (R12, R13). -/
def takeTime (sender : Nat) (b : StateBody) (passed : Nat) (s : State) : State :=
  if isTimeSource sender b s then
    let s := s.modRef fun u => { u with peerSilence := 0, sourceSeen := true }
    if s.ref.status = .anchored then s else phaseLoad (s.plus b.frame passed) s
  else s

/-- The announcements of a STATE enter the Peer Table (R157). -/
def announce (sender : Nat) (b : StateBody) (s : State) : State :=
  setPeer sender (fun e => { e with floor := some b.floor, status := some b.status }) s

/-- A joining station takes up the item number of a peer's STATE (R140). -/
def joinItem (number : Byte) (s : State) : State :=
  if s.station.mode = .joining then s.modItem fun i => { i with number := number } else s

/-- A peer's STATE (R146): the Peer Table, the time, the floor, the item number while JOINING, the map, the overtaken test.
`passed` is the number of boundaries that fell inside its reception (R13). -/
def takeState (sender : Nat) (b : StateBody) (passed : Nat) (s : State) : State :=
  let s := takeTime sender b passed (announce sender b s)
  let s := joinItem b.item (holderFromState sender s)
  overtakenTest (expireCues (mapState sender b.claims s))

/-! ### The station's own packets (R151) -/

/-- A CUE or REVISE body for a claim with these text rows (R71, R87). -/
def bodyOf (c : Claim) (t : Text) : CueBody :=
  { seq := c.seq, low := c.low, count := c.count, showAt := c.showAt, minOff := c.minOff, lingerOff := c.lingerOff,
    gap := c.gap, item := c.item, speaker := t.speaker, source := c.source, rows := t.lines }

/-- The claims a STATE lists, with the off bound the map holds (R70, R156). -/
def stateClaims (s : State) : List StateClaim :=
  (s.claims.filter Claim.echoed).map fun c =>
    { seq := c.seq, low := c.low, count := c.count, showAt := c.showAt, minOff := c.minOff,
      offBound := match findCue s.own c.seq s with | some d => d.offBound | none => c.lingerOff }

/-- The body of a STATE, filled at its start (R156). -/
def stateBody (s : State) : StateBody :=
  { status := s.ref.status, rate := s.fps, displayRows := s.displayRows, width := s.rowWidth, frame := s.n,
    floor := s.floor.state, holder := s.floor.holder, item := s.item.number, claims := stateClaims s }

/-- The claim a queued CUE is for. -/
def claimToSend (seq : Byte) (s : State) : Option Claim := s.claims.find? fun c => decide (c.seq = seq) && c.isPlanned

/-- The claim a queued REVISE is for. -/
def claimToRevise (seq : Byte) (s : State) : Option Claim :=
  s.claims.find? fun c => decide (c.seq = seq) && c.revision.isSome

/-- The content a packet takes at its start (R151), if its owner has one for it. -/
def fill (k : PacketKind) (s : State) : Option Sent :=
  match k with
  | .cut seq off => some { packet := .cut seq off, text := .empty }
  | .cue seq => (claimToSend seq s).map fun c => { packet := .cue (bodyOf c c.text), text := c.text }
  | .revise seq =>
    (claimToRevise seq s).map fun c =>
      { packet := .revise (bodyOf c (c.revision.getD c.text)), text := c.revision.getD c.text }
  | .take forced => some { packet := .take forced, text := .empty }
  | .yield => some { packet := .yield s.floor.successor, text := .empty }
  | .item => some { packet := .item (s.plus s.n 4) (s.item.number + 1), text := .empty }
  | .state => some { packet := .state (stateBody s), text := .empty }

/-- How the test of R76 answers for the packet at the head. -/
inductive StartTest where
  /-- It may start. -/
  | starts
  /-- Fewer than 4 frames from its show: stale at start. -/
  | stale
  /-- The station is off the floor. -/
  | offFloor
  /-- Its claim no longer wants it. -/
  | orphan
  deriving DecidableEq, Repr

/-- The test of R76 on a claim (the floor is looked at first, log entry 10). -/
def startTestOf (c : Option Claim) (s : State) : StartTest :=
  match c with
  | none => .orphan
  | some c => if !s.onFloor then .offFloor else if s.dist s.n c.showAt < 4 then .stale else .starts

/-- The test of R76; other kinds are not tested. -/
def startTest (k : PacketKind) (s : State) : StartTest :=
  match k with
  | .cue seq => startTestOf (claimToSend seq s) s
  | .revise seq => startTestOf (claimToRevise seq s) s
  | _ => .starts

/-- A packet the test of R76 gives back or removes (R72, R75, R76, R87). -/
def giveBack (k : PacketKind) (why : StartTest) (s : State) : State :=
  match k with
  | .cue seq =>
    match why with
    | .stale => handBack (fun c => decide (c.seq = seq)) s
    | .offFloor => dropPlanned (fun c => decide (c.seq = seq)) s
    | _ => removeUnstarted (PacketKind.isCueOf seq) s
  | .revise seq =>
    match why with
    | .orphan => removeUnstarted (PacketKind.isReviseOf seq) s
    | _ => pushReport (.late (some seq)) (dropRevision seq s)
  | _ => s

/-- The index of a packet's slot within its class (R149, R152). -/
def slotIndex (s : State) (q : QPacket) : Nat :=
  if q.fallback then s.own - 1 else (s.own + 16 - s.line.lastSender + 15) % 16

/-- The slot of a packet (R149). -/
def slotOf (s : State) (q : QPacket) : Nat := q.kind.cls * 16 + slotIndex s q

/-- The slot of the packet has been reached at moment `t`: slot s begins s × 10 bit times after the idle point (R149). -/
def slotReached (t : Moment) (s : State) (q : QPacket) : Bool :=
  decide (s.line.idlePoint + slotOf s q * 10 * Config.bitTime ≤ t)

/-- The mode, the line and the guard window allow a start (R149, R150). -/
def mayStart (s : State) : Bool :=
  (decide (s.station.mode = .active) || decide (s.station.mode = .parked) || decide (s.station.mode = .resetting)) &&
  s.line.idle && !s.ref.guardOpen && !s.transmitting

/-- The first queued packet equal to this one is changed. -/
def changeFirst (p : QPacket) (f : QPacket → QPacket) : List QPacket → List QPacket
  | [] => []
  | q :: qs => if q = p then f q :: qs else q :: changeFirst p f qs

/-- What a start makes of its owner: a claim becomes SENDING (R76), an own ITEM becomes SENDING (R136). -/
def ownerStarts (k : PacketKind) (s : State) : State :=
  match k with
  | .cue seq => s.setClaims (s.claims.map fun c => if c.seq = seq ∧ c.state = .planned then { c with state := .sending } else c)
  | .item => s.modItem fun i => { i with own := .sending }
  | _ => s

/-- The packet starts: it is filled, the line is BUSY, and its reception by the station's own receiver begins (R148, R151). -/
def startPacket (q : QPacket) (sent : Sent) (s : State) : State :=
  ownerStarts q.kind
    (s.modLine fun l =>
      { l with queue := changeFirst q (fun p => { p with sent := some sent }) l.queue, idle := false, receiving := some 0 })

/-- The start of the packet at the head, if its slot is reached; a packet given back makes way for the next head at the same
moment (R149, R151). DEDUCED: before the attempt that a hand-back opens (log entry 35). At most `k` packets are looked at. -/
def startHead : Nat → Moment → State → State
  | 0, _, s => s
  | k + 1, t, s =>
    match queueHead s.line.queue with
    | none => s
    | some q =>
      if slotReached t s q then
        match startTest q.kind s, fill q.kind s with
        | .starts, some sent => startPacket q sent s
        | why, _ => startHead k t (giveBack q.kind why s)
      else s

/-- The packet in transmission. -/
def inTransmission (s : State) : Option QPacket := s.line.queue.find? QPacket.started

/-- The packet in transmission leaves the queue, and its place is free (R154). -/
def leaveQueue (s : State) : State :=
  enterWaiting (s.modLine fun l => { l with queue := l.queue.eraseP QPacket.started })

/-! ### Echoes (R80, R87, R111, R113, R122, R136, R101) -/

/-- The claim record the echo of a CUE matches. -/
def sendingClaim (seq : Byte) (s : State) : Option Claim :=
  s.claims.find? fun c => decide (c.seq = seq) && decide (c.state = .sending)

/-- A claim whose show is at or before n at its echo goes on air at once (R80). -/
def airAtEcho (seq : Byte) (s : State) : State :=
  match s.claims.find? fun c => decide (c.seq = seq) && decide (c.state = .claimed) with
  | some c =>
    if atOrBefore s.day c.showAt s.n then
      pushReport (.onAir seq s.n)
        (s.setClaims (s.claims.map fun d => if d.seq = seq ∧ d.state = .claimed then { d with state := .onAir } else d))
    else s
  | none => s

/-- The echo of a CUE (R80): CLAIMED and its report, then the Row Map, which enters it whole, whatever item boundary was taken
before (R103, R106; DESIGN CHOICE against R65, log entry 51), then ON AIR when the show is already reached. DEDUCED: a cue
that loses a conflict in the Row Map's work ends without going on air (log entry 40). An echo that matches no SENDING
claim is taken by the Row Map alone. -/
def cueEcho (b : CueBody) (s : State) : State :=
  match sendingClaim b.seq s with
  | some c =>
    let s := s.setClaims (s.claims.map fun d => if d.seq = b.seq ∧ d.state = .sending then { d with state := .claimed } else d)
    let s := pushReport (.claimed c.seq c.low c.count c.showAt c.minOff c.lingerOff) s
    expireCues (airAtEcho b.seq (mapCue s.own b s))
  | none => expireCues (mapCue s.own b s)

/-- The claim after the echo of a REVISE that carried `t` (R87): its text is the one carried, and a revision equal to it is
cleared. -/
def Claim.revised (t : Text) (c : Claim) : Claim :=
  { c with text := t, revision := if c.revision = some t then none else c.revision }

/-- The echo of a REVISE (R87): a revision shortened while it was in transmission is sent anew. -/
def reviseEcho (b : CueBody) (t : Text) (s : State) : State :=
  match s.claims.find? fun c => decide (c.seq = b.seq) && !c.isPlanned with
  | some _ =>
    let s := pushReport (.revised b.seq) (updateClaim b.seq (Claim.revised t) s)
    let s := if (claimToRevise b.seq s).isSome && !hasPacket (PacketKind.isReviseOf b.seq) s then
        requestPacket (.revise b.seq) s else s
    expireCues (mapRevise s.own b s)
  | none => expireCues (mapRevise s.own b s)

/-- The echo of a CUT (R81, R88): an emptied claim reports REVISED before the OFF the echo brings about. DESIGN CHOICE: also
where its CUE has not been echoed, so that there is nothing to end (log entry 18). -/
def cutEcho (seq : Byte) (off : Frame) (s : State) : State :=
  let s := if s.claims.any fun c => decide (c.seq = seq) && c.emptied then pushReport (.revised seq) s else s
  takeCut s.own seq off s

/-- Own claims whose cue the station's own STATE did not list end (R101, R105). -/
def endUnlisted : List Cue → State → State
  | [], s => s
  | c :: cs, s => endUnlisted cs (if (findCue c.owner c.seq s).isNone then cueGone .plain c s else s)

/-- The echo of a STATE (R101): the own entries are replaced by the cues it lists. -/
def stateEcho (b : StateBody) (s : State) : State :=
  let before := s.map.filter fun c => decide (c.owner = s.own)
  let s := mapState s.own b.claims (announce s.own b s)
  expireCues (endUnlisted before s)

/-- The echo of a packet is taken by the station's own receiver (R146, R151). -/
def deliverEcho (sent : Sent) (s : State) : State :=
  match sent.packet with
  | .cue b => cueEcho b s
  | .revise b => reviseEcho b sent.text s
  | .cut seq off => cutEcho seq off s
  | .take forced => if forced then forcedTakeView s.own s else ownPlainTake s
  | .yield q => yieldView true q s
  | .item b i => takeItem true b i s
  | .state b => stateEcho b s

/-- The echo (R151): the packet leaves the queue, and passes through the checks of R144 to R146 as any packet heard: the
station is the last sender heard, and the packet is delivered. One that fails the envelope checks is discarded with
LINE_FAULT (log entry 8). -/
def echoAct (q : QPacket) (sent : Sent) (s : State) : State :=
  let s := leaveQueue (endReception s)
  let s := if q.kind = .item then s.modItem fun u => { u with own := .none } else s
  if packetValid s.own sent.packet then
    let s := markHeard s.own s
    if packetFits s sent.packet then deliverEcho sent s else mismatchAct s
  else s.flag .lineFault

/-! ### The stop (R152, R153) -/

/-- The owner is told of a stop: a CUE's claim returns to PLANNED (R77), an own ITEM to QUEUED (R136). DESIGN CHOICE: the
claim keeps its withdrawal, with the CUT that goes first (log entry 18), and its revision, with the REVISE queued for it
(log entry 39). -/
def ownerStops (k : PacketKind) (s : State) : State :=
  match k with
  | .cue seq => s.setClaims (s.claims.map fun c => if c.seq = seq ∧ c.state = .sending then { c with state := .planned } else c)
  | .item => s.modItem fun i => { i with own := .queued }
  | _ => s

/-- The retry limit (R153). -/
def retryLimit : Nat := 16

/-- The packet after a stop: its attempt count rises and its fallback mark is set (R152). -/
def QPacket.stopped (q : QPacket) : QPacket := { q with attempts := q.attempts + 1, fallback := true, sent := none }

/-- What becomes of the owner of a packet that was in transmission when the queue was emptied and then stops: the packet is
removed with the rest (R159, R163, R136). -/
def removedAtStop (k : PacketKind) (s : State) : State :=
  match k with
  | .cut seq _ => updateClaim seq (fun c => { c with withdrawal := none }) s
  | .item => s.modItem fun i => { i with own := .none }
  | _ => s

/-- A readback mismatch stops the packet in transmission (R152): at its sixteenth stop it is given up, whatever the queue was
emptied of around it (R153); before that it is tried again, or removed when the queue was emptied around it (R159). -/
def stopAct (q : QPacket) (s : State) : State :=
  if retryLimit ≤ q.attempts + 1 then
    giveUp q.kind ((ownerStops q.kind s).modLine fun l => { l with queue := l.queue.eraseP QPacket.started })
  else if q.mark = .inFlight then removedAtStop q.kind (leaveQueue s)
  else (ownerStops q.kind s).modLine fun l => { l with queue := changeFirst q QPacket.stopped l.queue }

end Sys2Proof.Machine
end

