-- ==== Sys2Proof/Machine/Events.lean ====
section
/-! DEFINITION. The commands that name an event a wait brings about: the event's own act, made when it is due. The act that makes one
of them due has made it already (R1, R154, R161, R163); the command makes it where it is still due (log entry 4). -/

namespace Sys2Proof.Machine

/-- IDLE_CLOSE (R27). -/
def execIdleClose (s : State) : Host.Outcome State Fault Refusal := .next (finish (idleCloseAct s))

/-- YIELD_DEADLINE (R121). -/
def execYieldDeadline (s : State) : Host.Outcome State Fault Refusal := .next (finish (deadlineAct s))

/-- BID_WAIT_EXPIRY (R118). -/
def execBidWaitExpiry (s : State) : Host.Outcome State Fault Refusal := .next (finish (bidExpiryAct s))

/-- PEER_SILENT (R157, R114). -/
def execPeerSilent (peer : Nat) (s : State) : Host.Outcome State Fault Refusal := .next (finish (peerSilentAct peer s))

/-- STATE_DUE (R156). -/
def execStateDue (s : State) : Host.Outcome State Fault Refusal := .next (stateDueAct s)

/-- MISMATCH_COUNT_EXPIRY (R145): the last of the count falls away, and with it its ALERT condition. -/
def execMismatchCountExpiry (s : State) : Host.Outcome State Fault Refusal :=
  .next (s.modLine fun l => { l with mismatch := if l.mismatch = 1 then 0 else l.mismatch })

/-- JOIN_WAIT_EXPIRY (R161). -/
def execJoinWaitExpiry (s : State) : Host.Outcome State Fault Refusal := .next (finish (joinAct s))

/-- RESET_COUNT_EXPIRY (R163). -/
def execResetCountExpiry (s : State) : Host.Outcome State Fault Refusal := .next (finish (resetCountAct s))

/-- RESET_DRAINED (R163). -/
def execResetDrained (s : State) : Host.Outcome State Fault Refusal := .next (floorReport (drainAct s))

/-- DEFERRED_PARK (R124). -/
def execDeferredPark (s : State) : Host.Outcome State Fault Refusal := .next (parkAct s)

/-- A closing edge in ACTIVE or PARKED with no request in hand queues an ITEM, or leaves it WAITING (R135). -/
def contactAct (s : State) : State :=
  if (s.station.mode = .active ∨ s.station.mode = .parked) ∧ s.item.own = .none then
    if s.line.queue.length < classPlaces then
      (requestPacket .item s).modItem fun i => { i with own := .queued }
    else (requestPacket .item s).modItem fun i => { i with own := .waiting }
  else s

/-- ITEM_CONTACT_CLOSE (R135). -/
def execItemContactClose (s : State) : Host.Outcome State Fault Refusal := .next (contactAct s)

/-- REPORT_LINE_SENT (R165): the head line leaves the report queue, its bytes sent on the text port (R174). -/
def execReportLineSent (s : State) : Host.Outcome State Fault Refusal :=
  .next (s.modReport fun u =>
    match u.queue with
    | r :: rest => { u with queue := rest, portOut := r.line }
    | [] => u)

end Sys2Proof.Machine
end

