-- ==== Sys2Proof/Machine/Line.lean ====
section
/-! DEFINITION. The commands of the cue line's transmitter and line state: LINE_IDLE, LINE_BUSY, TRANSMISSION_START, PACKET_ECHO,
READBACK_MISMATCH, WAITING_REQUEST_ENTRY. -/

namespace Sys2Proof.Machine

/-- LINE_IDLE at moment `t` (R148): a BUSY line becomes IDLE, and the moment is an idle point; not while the station itself
transmits. DESIGN CHOICE: a reception still open ends without LINE_FAULT, which CUT_SHORT_PACKET flags (log entry 43). -/
def execLineIdle (t : Moment) (s : State) : Host.Outcome State Fault Refusal :=
  if !s.line.idle && !s.transmitting then
    .next (s.modLine fun l => { l with idle := true, idlePoint := t, receiving := none })
  else .next s

/-- LINE_BUSY (R148, R143): a start bit while the line is IDLE begins the reception of a packet. -/
def execLineBusy (s : State) : Host.Outcome State Fault Refusal :=
  if s.line.idle then .next (s.modLine fun l => { l with idle := false, receiving := some 0 }) else .next s

/-- TRANSMISSION_START at moment `t` (R149 to R151). -/
def execTransmissionStart (t : Moment) (s : State) : Host.Outcome State Fault Refusal :=
  if mayStart s then .next (finish (startHead (s.line.queue.length + s.line.waiting.length + 1) t s)) else .next s

/-- PACKET_ECHO (R151). -/
def execPacketEcho (s : State) : Host.Outcome State Fault Refusal :=
  match inTransmission s with
  | some q =>
    match q.sent with
    | some sent => .next (finish (echoAct q sent s))
    | none => .next s
  | none => .next s

/-- READBACK_MISMATCH (R152). -/
def execReadbackMismatch (s : State) : Host.Outcome State Fault Refusal :=
  match inTransmission s with
  | some q => .next (finish (stopAct q s))
  | none => .next s

/-- WAITING_REQUEST_ENTRY (R154). -/
def execWaitingRequestEntry (s : State) : Host.Outcome State Fault Refusal := .next (enterWaiting s)

end Sys2Proof.Machine
end

