-- ==== Sys2Proof/Machine/Packets.lean ====
section
/-! DEFINITION. The commands of the cue line's receiver: a bad packet discarded, and each kind of valid packet heard. -/

namespace Sys2Proof.Machine

/-- CUT_SHORT_PACKET (R143). -/
def execCutShortPacket (s : State) : Host.Outcome State Fault Refusal := .next (discardPacket s)

/-- DISCARDED_PACKET (R144). -/
def execDiscardedPacket (s : State) : Host.Outcome State Fault Refusal := .next (discardPacket s)

/-- CUE_PACKET (R90). -/
def execCuePacket (sender : Nat) (body : CueBody) (s : State) : Host.Outcome State Fault Refusal :=
  .next (finish (hear sender (.cue body) (takeCue sender body) s))

/-- REVISE_PACKET (R93). -/
def execRevisePacket (sender : Nat) (body : CueBody) (s : State) : Host.Outcome State Fault Refusal :=
  .next (finish (hear sender (.revise body) (takeRevise sender body) s))

/-- CUT_PACKET (R102). -/
def execCutPacket (sender : Nat) (seq : Byte) (off : Frame) (s : State) : Host.Outcome State Fault Refusal :=
  .next (finish (hear sender (.cut seq off) (takeCut sender seq off) s))

/-- PLAIN_TAKE (R110, R111). -/
def execPlainTake (sender : Nat) (s : State) : Host.Outcome State Fault Refusal :=
  .next (finish (hear sender (.take false) (peerPlainTake sender) s))

/-- FORCED_TAKE (R113). -/
def execForcedTake (sender : Nat) (s : State) : Host.Outcome State Fault Refusal :=
  .next (finish (hear sender (.take true) (forcedTakeView sender) s))

/-- YIELD_PACKET (R112). -/
def execYieldPacket (sender : Nat) (successor : Option Nat) (s : State) : Host.Outcome State Fault Refusal :=
  .next (finish (hear sender (.yield successor) (yieldView false successor) s))

/-- ITEM_PACKET (R137). -/
def execItemPacket (sender : Nat) (boundary : Frame) (number : Byte) (s : State) : Host.Outcome State Fault Refusal :=
  .next (finish (hear sender (.item boundary number) (takeItem false boundary number) s))

/-- STATE_PACKET (R100): the boundaries that fell inside its reception are those counted since the line became BUSY. -/
def execStatePacket (sender : Nat) (body : StateBody) (s : State) : Host.Outcome State Fault Refusal :=
  .next (finish (hear sender (.state body) (takeState sender body (s.line.receiving.getD 0)) s))

end Sys2Proof.Machine
end

