-- ==== Sys2Proof/Machine/Reference.lean ====
section
/-! DEFINITION. The commands of the Reference Unit and of power-on: POWER_ON, REFERENCE_PULSE, FLYWHEEL_EXPIRY, GUARD_WINDOW_OPEN,
TIMECODE_VALUE, TIMECODE_LOST, PEER_TIME_SILENCE_EXPIRY. -/

namespace Sys2Proof.Machine

/-- The Peer Table at power-on: every entry UNKNOWN but the station's own, which is PRESENT (R159). -/
def powerOnPeers (own : Nat) : List Peer :=
  stationNumbers.map fun p => if p = own then { Peer.unheardOf with presence := .present } else Peer.unheardOf

/-- The station right after power-on at moment `t` with these straps: every block takes its power-on values. -/
def powerOnState (pins : StrapPins) (t : Moment) (s : State) : State :=
  { State.reset with
    pending := s.pending
    straps := pins
    ref := { State.reset.ref with refInstant := t, peerSilence := 3 * StrapPins.fps pins }
    line := { State.reset.line with idlePoint := t, peers := powerOnPeers (StrapPins.number pins) }
    openOrders := s.openOrders }

/-- POWER_ON (R161). -/
def execPowerOn (pins : StrapPins) (t : Moment) (s : State) : Host.Outcome State Fault Refusal :=
  .next (powerOnState pins t s)

/-- A realigning pulse: the reference instant moves, the good-pulse count is zeroed, an open guard window closes, and no boundary
is made (R5, R8). -/
def realign (t : Moment) (s : State) : State :=
  s.modRef fun u => { u with refInstant := t, setByPulse := true, goodPulses := 0, guardOpen := false }

/-- A pulse that makes a boundary sets the reference instant; in tolerance it raises the good-pulse count, to at most 8, and out of
tolerance it zeroes it (R4). -/
def pulseInstant (t : Moment) (s : State) : State :=
  s.modRef fun u =>
    { u with refInstant := t, setByPulse := true,
             goodPulses := if inTolerance s (t - u.refInstant) then min 8 (u.goodPulses + 1) else 0 }

/-- REFERENCE_PULSE at moment `t` (R4, R5). -/
def execReferencePulse (t : Moment) (s : State) : Host.Outcome State Fault Refusal :=
  if makesBoundary s (t - s.ref.refInstant) then .next (boundary t (pulseInstant t s)) else .next (realign t s)

/-- The flywheel moves the reference instant on by one period and flags REF_LOST (R6). -/
def flywheelInstant (s : State) : State :=
  (s.modRef fun u => { u with refInstant := u.refInstant + s.period, setByPulse := false, goodPulses := 0 }).flag .refLost

/-- FLYWHEEL_EXPIRY (R6): the boundary is made at 1.02P after the reference instant. -/
def execFlywheelExpiry (s : State) : Host.Outcome State Fault Refusal :=
  .next (boundary (expiryMoment s) (flywheelInstant s))

/-- GUARD_WINDOW_OPEN (R8). -/
def execGuardWindowOpen (s : State) : Host.Outcome State Fault Refusal :=
  .next (s.modRef fun u => { u with guardOpen := true })

/-- A timecode value is valid (R9). -/
def timecodeValid (fps h m sec f : Nat) : Bool :=
  decide (h ≤ 23) && decide (m ≤ 59) && decide (sec ≤ 59) && decide (f < fps)

/-- The frame number a timecode value names (R9). -/
def timecodeFrame (fps h m sec f : Nat) : Frame := h * 3600 * fps + m * 60 * fps + sec * fps + f

/-- TIMECODE_VALUE (R9): a valid value on an ANCHORED-strapped station sets the pending load; any other is discarded. -/
def execTimecodeValue (h m sec f : Nat) (s : State) : Host.Outcome State Fault Refusal :=
  if s.anchoredStrap && timecodeValid s.fps h m sec f then
    .next (s.modRef fun u => { u with pendingLoad := some (s.plus (timecodeFrame s.fps h m sec f) 1) })
  else .next s

/-- TIMECODE_LOST (R11). -/
def execTimecodeLost (s : State) : Host.Outcome State Fault Refusal := .next (timecodeLostAct s)

/-- PEER_TIME_SILENCE_EXPIRY (R14). -/
def execPeerTimeSilenceExpiry (s : State) : Host.Outcome State Fault Refusal := .next (peerTimeAct s)

end Sys2Proof.Machine
end

