-- ==== Sys2Proof/Machine/TextPort.lean ====
section
/-! DEFINITION. The text-port commands: characters, the codes of the Block Builder and the Script Store, the floor and station codes, the
Pacing Set's codes, STATUS and RESET. In RESETTING every one of them is ignored (R37). -/

namespace Sys2Proof.Machine

/-- The text port is ignored (R37). -/
def State.portClosed (s : State) : Bool := decide (s.station.mode = .resetting)

/-- A control code whose work brings about no further work: an open PACE command is discarded first (R129). -/
def plainCode (f : State → State) (s : State) : State := if s.portClosed then s else f (closeCommand s)

/-- A control code whose act may go on to attempts, bids or yields. -/
def actCode (f : State → State) (s : State) : State := if s.portClosed then s else finish (f (closeCommand s))

/-- A discarded byte: TEXT_ERROR; an unassigned control code also ends an open PACE command, a byte with a framing error or in
0x80..0xFF leaves it open (R17, R129, R173). -/
def discardByte (framingError : Bool) (b : Byte) (s : State) : State :=
  if !framingError && isControl b then (closeCommand s).flag .textError else s.flag .textError

/-- A character is taken by the open PACE command, the Script Store or the Block Builder (R17, R129). -/
def takeCharacter (c : Byte) (s : State) : State :=
  match s.pacing.command with
  | some cs => s.modPacing fun u => { u with command := some (cs ++ [c]) }
  | none => if s.loadingScript then storeCharacter c s else builderCharacter c s

/-- CHARACTER (R17, R18): a byte that is no character is sorted as R17 sorts it. -/
def execCharacter (c : Byte) (s : State) : Host.Outcome State Fault Refusal :=
  if s.portClosed then .next s
  else if isCharacter c then .next (finish (takeCharacter c s))
  else .next (discardByte false c s)

/-- DISCARDED_BYTE (R17). -/
def execDiscardedByte (framingError : Bool) (b : Byte) (s : State) : Host.Outcome State Fault Refusal :=
  if s.portClosed then .next s else .next (discardByte framingError b s)

/-- END-BLOCK for the Script Store or the Block Builder (R25, R39). -/
def endBlockAct (s : State) : State :=
  if s.loadingScript then storeEndBlock s else restartIdle (closeOpen .finish s)

/-- END_BLOCK (R25). -/
def execEndBlock (s : State) : Host.Outcome State Fault Refusal := .next (actCode endBlockAct s)

/-- SPEAKER for the Script Store or the Block Builder: the mark is set after any close (R26, R39). -/
def speakerAct (s : State) : State :=
  if s.loadingScript then storeSpeaker s
  else (restartIdle (closeOpen .speaker s)).modText fun t => { t with speakerMark := true }

/-- SPEAKER (R26). -/
def execSpeaker (s : State) : Host.Outcome State Fault Refusal := .next (actCode speakerAct s)

/-- RETRACT for the Script Store or for live text (R34, R42); in DISCARDING it is discarded (R41). -/
def retractAct (s : State) : State :=
  match s.script.load with
  | .loading => s.modScript ScriptStore.retracted
  | .discarding => s
  | .notLoading => liveRetract s

/-- RETRACT (R34). -/
def execRetract (s : State) : Host.Outcome State Fault Refusal := .next (actCode retractAct s)

/-- The store cleared, with loading begun; the loop flag keeps its value (R38). -/
def ScriptStore.begun (u : ScriptStore) : ScriptStore :=
  { u with load := .loading, stored := [], loadText := .empty, loadWord := [], loadMark := false, storedChars := 0,
           pointer := 1 }

/-- SCRIPT_BEGIN (R38). -/
def execScriptBegin (s : State) : Host.Outcome State Fault Refusal :=
  .next (plainCode (fun s => s.modScript ScriptStore.begun) s)

/-- SCRIPT-END (R40): the loading block is completed and stored; in NOT_LOADING the code is ignored. -/
def scriptEndAct (s : State) : State :=
  if s.loadingScript then
    (storeEndBlock s).modScript fun u => { u with loadMark := false, load := .notLoading }
  else s

/-- SCRIPT_END (R40). -/
def execScriptEnd (s : State) : Host.Outcome State Fault Refusal := .next (plainCode scriptEndAct s)

/-- LOOP_ON (R43). -/
def execLoopOn (s : State) : Host.Outcome State Fault Refusal :=
  .next (plainCode (fun s => s.modScript fun u => { u with loop := true }) s)

/-- LOOP_OFF (R43). -/
def execLoopOff (s : State) : Host.Outcome State Fault Refusal :=
  .next (plainCode (fun s => s.modScript fun u => { u with loop := false }) s)

/-- NEXT (R44). -/
def execNext (s : State) : Host.Outcome State Fault Refusal := .next (actCode storeNext s)

/-- TAKE (R116): a bid from IDLE in ACTIVE; ignored with a bid or the floor in hand; refused in the other modes. -/
def takeAct (s : State) : State :=
  if s.station.mode = .active then if s.floor.state = .idle then bid s else s
  else pushReport .refused s

/-- TAKE (R116). -/
def execTake (s : State) : Host.Outcome State Fault Refusal := .next (actCode takeAct s)

/-- YIELD (R123): a LIVE station enters YIELDING. -/
def yieldAct (s : State) : State := if s.floor.state = .live then enterYielding s else s

/-- YIELD (R123). -/
def execYield (s : State) : Host.Outcome State Fault Refusal := .next (actCode yieldAct s)

/-- PARK in ACTIVE (R124): an IDLE station parks at once; otherwise a park is owed, and a LIVE station enters YIELDING. -/
def parkActive (s : State) : State :=
  match s.floor.state with
  | .idle => parkNow s
  | .live => (enterYielding s).modFloor fun u => { u with parkOwed := true }
  | .bidding | .yielding => s.modFloor fun u => { u with parkOwed := true }

/-- PARK by the mode (R162). -/
def parkCode (s : State) : State :=
  match s.station.mode with
  | .joining => s.modStation fun u => { u with parkRemembered := true }
  | .active => parkActive s
  | .parked | .resetting | .mute => s

/-- PARK (R124, R162). -/
def execPark (s : State) : Host.Outcome State Fault Refusal := .next (actCode parkCode s)

/-- UNPARK by the mode (R162). -/
def unparkCode (s : State) : State :=
  match s.station.mode with
  | .joining => s.modStation fun u => { u with parkRemembered := false }
  | .parked => s.modStation fun u => { u with mode := .active }
  | .active | .resetting | .mute => s

/-- UNPARK (R162). -/
def execUnpark (s : State) : Host.Outcome State Fault Refusal := .next (actCode unparkCode s)

/-- HOLD (R132). -/
def execHold (s : State) : Host.Outcome State Fault Refusal :=
  .next (plainCode (fun s => s.modPacing fun u => { u with holding := true }) s)

/-- RELEASE, taken while holding, clears the hold flag and makes pending AT_ONCE values active (R132). -/
def releaseAct (s : State) : State :=
  if s.pacing.holding then reflectAtOnce (s.modPacing fun u => { u with holding := false }) else s

/-- RELEASE (R132). -/
def execRelease (s : State) : Host.Outcome State Fault Refusal := .next (plainCode releaseAct s)

/-- Entries on each display row, row 1 first (R167). -/
def rowCounts (s : State) : List Nat :=
  (List.range s.displayRows).map fun i => (rowEntries s (i + 1)).length

/-- The fields of a STATUS report, filled from the state that stands (R167). -/
def statusFields (s : State) : StatusFields where
  mode := s.station.mode
  floor := s.floor.state
  holder := s.floor.holder
  pace := s.timer.pace
  time := s.ref.status
  locked := s.locked
  n := s.n
  blocks := s.text.queue.length
  packets := s.line.queue.length
  claims := s.claims.length
  notOnAir := notOnAir s.claims
  entries := rowCounts s
  item := s.item.number
  flags := s.report.flags

/-- STATUS: room is made first, so that a REPORT_LOST it causes is carried; the flags carried are cleared in the same act
(R167). -/
def statusAct (s : State) : State :=
  let s := s.modReport makeReportRoom
  s.modReport fun u => { u with queue := u.queue ++ [.status (statusFields s)], flags := .clear }

/-- STATUS (R167). -/
def execStatus (s : State) : Host.Outcome State Fault Refusal := .next (plainCode statusAct s)

/-- RESET (R163). An open PACE command is discarded without TEXT_ERROR on the entry (R129). -/
def execReset (s : State) : Host.Outcome State Fault Refusal :=
  if s.station.mode = .resetting then .next s
  else if s.station.mode = .mute then .next (closeCommand s)
  else .next (finish (enterResetting s))

/-- PACE_INTRODUCER (R129): an open command is discarded with TEXT_ERROR, and a command is open. -/
def execPaceIntroducer (s : State) : Host.Outcome State Fault Refusal :=
  .next (plainCode (fun s => s.modPacing fun u => { u with command := some [] }) s)

/-- PACE_TERMINATOR (R129). -/
def execPaceTerminator (s : State) : Host.Outcome State Fault Refusal :=
  if s.portClosed then .next s else .next (endCommand s)

end Sys2Proof.Machine
end

