-- ==== Sys2Proof/Machine/Dispatch.lean ====
section
/-! DEFINITION. The meaning of each command: one arm for each row of spec/opcode_table.json. -/

namespace Sys2Proof.Machine

/-- The effect of a command on everything but the queue of pending commands. -/
def exec (i : Instr) (s : State) : Host.Outcome State Fault Refusal :=
  match i with
  | .powerOn pins t => Sys2Proof.Machine.execPowerOn pins t s
  | .referencePulse t => Sys2Proof.Machine.execReferencePulse t s
  | .flywheelExpiry => Sys2Proof.Machine.execFlywheelExpiry s
  | .guardWindowOpen => Sys2Proof.Machine.execGuardWindowOpen s
  | .timecodeValue h m sec f => Sys2Proof.Machine.execTimecodeValue h m sec f s
  | .timecodeLost => Sys2Proof.Machine.execTimecodeLost s
  | .peerTimeSilenceExpiry => Sys2Proof.Machine.execPeerTimeSilenceExpiry s
  | .character c => Sys2Proof.Machine.execCharacter c s
  | .discardedByte framingError b => Sys2Proof.Machine.execDiscardedByte framingError b s
  | .endBlock => Sys2Proof.Machine.execEndBlock s
  | .speaker => Sys2Proof.Machine.execSpeaker s
  | .retract => Sys2Proof.Machine.execRetract s
  | .scriptBegin => Sys2Proof.Machine.execScriptBegin s
  | .scriptEnd => Sys2Proof.Machine.execScriptEnd s
  | .loopOn => Sys2Proof.Machine.execLoopOn s
  | .loopOff => Sys2Proof.Machine.execLoopOff s
  | .next => Sys2Proof.Machine.execNext s
  | .take => Sys2Proof.Machine.execTake s
  | .yield => Sys2Proof.Machine.execYield s
  | .park => Sys2Proof.Machine.execPark s
  | .unpark => Sys2Proof.Machine.execUnpark s
  | .hold => Sys2Proof.Machine.execHold s
  | .release => Sys2Proof.Machine.execRelease s
  | .status => Sys2Proof.Machine.execStatus s
  | .reset => Sys2Proof.Machine.execReset s
  | .paceIntroducer => Sys2Proof.Machine.execPaceIntroducer s
  | .paceTerminator => Sys2Proof.Machine.execPaceTerminator s
  | .idleClose => Sys2Proof.Machine.execIdleClose s
  | .yieldDeadline => Sys2Proof.Machine.execYieldDeadline s
  | .bidWaitExpiry => Sys2Proof.Machine.execBidWaitExpiry s
  | .peerSilent peer => Sys2Proof.Machine.execPeerSilent peer s
  | .stateDue => Sys2Proof.Machine.execStateDue s
  | .mismatchCountExpiry => Sys2Proof.Machine.execMismatchCountExpiry s
  | .joinWaitExpiry => Sys2Proof.Machine.execJoinWaitExpiry s
  | .resetCountExpiry => Sys2Proof.Machine.execResetCountExpiry s
  | .resetDrained => Sys2Proof.Machine.execResetDrained s
  | .deferredPark => Sys2Proof.Machine.execDeferredPark s
  | .itemContactClose => Sys2Proof.Machine.execItemContactClose s
  | .lineIdle t => Sys2Proof.Machine.execLineIdle t s
  | .transmissionStart t => Sys2Proof.Machine.execTransmissionStart t s
  | .packetEcho => Sys2Proof.Machine.execPacketEcho s
  | .readbackMismatch => Sys2Proof.Machine.execReadbackMismatch s
  | .waitingRequestEntry => Sys2Proof.Machine.execWaitingRequestEntry s
  | .cutShortPacket => Sys2Proof.Machine.execCutShortPacket s
  | .discardedPacket => Sys2Proof.Machine.execDiscardedPacket s
  | .cuePacket sender body => Sys2Proof.Machine.execCuePacket sender body s
  | .revisePacket sender body => Sys2Proof.Machine.execRevisePacket sender body s
  | .cutPacket sender seq off => Sys2Proof.Machine.execCutPacket sender seq off s
  | .plainTake sender => Sys2Proof.Machine.execPlainTake sender s
  | .forcedTake sender => Sys2Proof.Machine.execForcedTake sender s
  | .yieldPacket sender successor => Sys2Proof.Machine.execYieldPacket sender successor s
  | .itemPacket sender boundary number => Sys2Proof.Machine.execItemPacket sender boundary number s
  | .statePacket sender body => Sys2Proof.Machine.execStatePacket sender body s
  | .reportLineSent => Sys2Proof.Machine.execReportLineSent s
  | .lineBusy => Sys2Proof.Machine.execLineBusy s

end Sys2Proof.Machine
end

