-- ==== Sys2Proof/Safety.lean ====
section
/-! DEFINITION. What the manual promises of every state of a station, in the terms the statements use. -/

namespace Sys2Proof.Machine

/-! ### Text (R21) -/

/-- A text laid in rows of a given width (R21): one or two rows, each of 1 to W characters, no empty word, and a word in the last
row. -/
def Text.Laid (width : Nat) (t : Text) : Prop :=
  (t.rows.length = 1 ∨ t.rows.length = 2) ∧ (∀ r ∈ t.rows, ∀ w ∈ r, w ≠ []) ∧
  (∀ l ∈ t.lines, 1 ≤ l.length ∧ l.length ≤ width) ∧ t.rows.getLast? ≠ some []

/-- No text, or one that is laid. -/
def Text.LaidOrNone (width : Nat) (t : Text) : Prop := t.rows = [] ∨ t.Laid width

/-- The text that a started REVISE was read from is laid. -/
def QPacket.SentLaid (width : Nat) (q : QPacket) : Prop :=
  match q.sent with
  | some { packet := .revise _, text := t } => t.Laid width
  | _ => True

/-- The law of R21: every block in the Compose Buffer, the Block Queue, the Script Store and the Claim List has one or two rows of
1 to W characters, and so has every revision; no word in formation is longer than W (R19). -/
def TextOk (s : State) : Prop :=
  s.text.word.length ≤ s.rowWidth ∧ s.text.openText.LaidOrNone s.rowWidth ∧
  (∀ b ∈ s.text.queue, b.text.Laid s.rowWidth) ∧
  s.script.loadWord.length ≤ s.rowWidth ∧ s.script.loadText.LaidOrNone s.rowWidth ∧
  (∀ t ∈ s.script.stored, t.Laid s.rowWidth) ∧
  (∀ c ∈ s.claims, c.text.Laid s.rowWidth ∧ ∀ t ∈ c.revision, t.Laid s.rowWidth) ∧
  (∀ q ∈ s.line.queue ++ s.line.waiting, q.SentLaid s.rowWidth)

/-- The Script Store's count of blocks: the stored ones, and one while the loading block is non-empty (R41). -/
def ScriptStore.blockCount (u : ScriptStore) : Nat := u.stored.length + (if u.loadText.rows = [] then 0 else 1)

/-- The Script Store keeps its limits and its count of characters (03, R39, R41, R43). -/
def ScriptOk (s : State) : Prop :=
  (∀ t ∈ s.script.stored, t.Laid s.rowWidth) ∧ s.script.loadText.LaidOrNone s.rowWidth ∧
  s.script.storedChars = (s.script.stored.map Text.count).sum + s.script.loadText.count ∧
  s.script.storedChars ≤ storeCharacters ∧ s.script.blockCount ≤ storeBlocks ∧
  1 ≤ s.script.pointer ∧ s.script.pointer ≤ s.script.stored.length + 1 ∧
  (s.script.load ≠ .notLoading → s.script.pointer = 1)

/-! ### The Pacing Set (8.1, R131) -/

/-- Every value in its effective range: the fixed range and the four cross-limits. -/
def Params.Legal (v : Params Nat) : Prop :=
  (∀ p : Param, p.range.1 ≤ v.get p ∧ v.get p ≤ p.range.2) ∧
  v.dmin ≤ v.dmax ∧ v.dmax ≤ v.dlin ∧ v.t ≤ v.lmax ∧ v.h < v.t

/-- The active set is legal, and every pending value is in its fixed range (R128, R130, R131). -/
def PacingOk (s : State) : Prop :=
  s.pacing.active.Legal ∧ ∀ (p : Param) (x : Nat), s.pacing.pending.get p = some x → p.range.1 ≤ x ∧ x ≤ p.range.2

/-! ### The floor (R108, R124) -/

/-- The floor state and the view agree, the pending successor is never the holder, only an ACTIVE station is other than IDLE, and
only a YIELDING station owes a yield (R108, R109, R120, R162). -/
def FloorOk (s : State) : Prop :=
  (s.onFloor = true ↔ s.floor.holder = some s.own) ∧ (∀ q ∈ s.floor.successor, s.floor.holder ≠ some q) ∧
  (s.station.mode ≠ .active → s.floor.state = .idle) ∧ (s.floor.yieldOwed = true → s.floor.state = .yielding)

/-! ### Capacities (R30, R70, R154, R165) -/

/-- No queue or list holds more than the manual lets it: 16 blocks, 32 report lines, 8 packets with one in transmission and one
STATE, 4 claims with 2 not on air; no waiting request has started, the Peer Table has its 16 entries, and the last sender heard is a
station number. -/
def CapacityOk (s : State) : Prop :=
  s.text.queue.length ≤ blockCapacity ∧ s.report.queue.length ≤ reportCapacity ∧
  s.line.queue.length ≤ transmitCapacity ∧ (s.line.queue.filter QPacket.started).length ≤ 1 ∧ (∀ q ∈ s.line.waiting, q.sent = none) ∧
  ((s.line.queue ++ s.line.waiting).filter fun q => q.kind.isState).length ≤ 1 ∧
  s.claims.length ≤ 4 ∧ notOnAir s.claims ≤ 2 ∧ s.line.peers.length = 16 ∧ s.line.lastSender ≤ 16

/-! ### The Row Map (R91, R96, R98, R104) -/

/-- The Row Map between two acts: no cue has ended (R96, R104), no identity is held twice (R91), every cue stands on display rows
of the station, no row holds more than 8 entries (R104), and no two cues conflict (R98). -/
def MapOk (s : State) : Prop :=
  (∀ c ∈ s.map, cueEnded s c = false) ∧ s.map.Pairwise (fun a b => a.same b = false) ∧
  (∀ c ∈ s.map, spanInside s c.low c.count = true ∧ (c.count = 1 ∨ c.count = 2)) ∧
  (∀ row : Nat, (rowEntries s row).length ≤ rowCapacity) ∧
  s.map.Pairwise (fun a b => conflicts s.day a b = false)

/-! ### Work left undone -/

/-- Nothing that the manual has done "at once" or "in the same act" is left to do: an attempt (R50), an auto-take bid (R117), a park
owed (R124), the end of RESETTING (R163), a FLOOR report (R125), the entry of a waiting request (R154), the owing of a yield and
its YIELD (R120). -/
def Settled (s : State) : Prop :=
  attemptDue s = false ∧ autoTakeDue s = false ∧ parkDue s = false ∧ drained s = false ∧ s.floor.reportDue = false ∧
  (s.line.waiting = [] ∨ classPlaces ≤ s.line.queue.length) ∧
  (s.floor.state = .yielding → s.floor.yieldOwed = true ∨ nothingLeft s = false) ∧
  (s.floor.yieldOwed = true → hasPacket PacketKind.isYield s = true)

/-! ### Moments the statements speak of -/

/-- The text port is taken, no PACE command is open and no script is loading: text goes to the Block Builder (R17, R37, R129). -/
def TextReady (s : State) : Prop :=
  s.station.mode ≠ .resetting ∧ s.pacing.command = none ∧ s.script.load = .notLoading

/-- A valid packet from a peer that fits the station's configuration (R144, R145, R147). -/
def Delivered (p : Nat) (k : Packet) (s : State) : Prop :=
  packetValid p k = true ∧ p ≠ s.own ∧ packetFits s k = true

/-- The station with a valid packet from peer `p` received: the reception has ended, `p` is the last sender heard and is PRESENT with
its count at 0 (R146). -/
def State.hearing (p : Nat) (s : State) : State :=
  { s with line := { s.line with
      receiving := none, lastSender := p,
      peers := s.line.peers.set (p - 1)
        { s.line.peers.getD (p - 1) Peer.unheardOf with presence := .present, unheard := 0 } } }

/-- A sticky flag set (R168). -/
def State.flagged (f : Sticky) (s : State) : State :=
  { s with report := { s.report with flags := s.report.flags.raise f } }

end Sys2Proof.Machine
end

