-- ==== Sys2Proof/Certificates/Slice0/Obligations.lean ====
section
/-! DEFINITION. The statements for the provers. -/

open Sys2Proof Sys2Proof.Machine

/-! ### The queue of commands, power-on -/

/-- A step takes the command at the front of the queue and runs it on the state with the rest of the queue; with no command
waiting the station idles. -/
def Obligations.StepTakesFrontCommand : Prop :=
  (∀ (c : Instr) (rest : List Instr) (s : State), s.pending = c :: rest → step s = exec c { s with pending := rest }) ∧
  (∀ s : State, s.pending = [] → step s = .next s)

/-- Every command completes in every state: no command stops the station (the model's reading, log entry 16), and none touches
the queue of those that wait (the model's own queue, log entry 11). -/
def Obligations.NoCommandStops : Prop :=
  ∀ (c : Instr) (s : State), ∃ t, exec c s = .next t ∧ t.pending = s.pending

/-- POWER_ON leaves every block at its power-on values, with the straps as read, JOINING (R16, R37, R47, R69, R89, R107, R127,
R134, R142, R159, R161, R165, R168). -/
def Obligations.PowerOnValues : Prop :=
  ∀ (pins : StrapPins) (m : Moment) (s : State), ∃ t, exec (.powerOn pins m) s = .next t ∧ t.straps = pins ∧
    t.ref.n = 0 ∧ t.ref.refInstant = m ∧ t.ref.goodPulses = 0 ∧ t.locked = false ∧ t.ref.pendingLoad = none ∧
    t.ref.tcSilence = 10 ∧ t.ref.peerSilence = 3 * t.fps ∧ t.ref.status = .drifting ∧
    t.text.word = [] ∧ t.text.openText.rows = [] ∧ t.text.arrival = none ∧ t.text.speakerMark = false ∧
    t.text.idleCount = 0 ∧ t.text.nextSeq = 0 ∧ t.text.queue = [] ∧
    t.script.load = .notLoading ∧ t.script.stored = [] ∧ t.script.storedChars = 0 ∧ t.script.loadText.rows = [] ∧
    t.script.loadWord = [] ∧ t.script.loadMark = false ∧ t.script.pointer = 1 ∧ t.script.loop = false ∧
    t.timer.pace = .normal ∧ t.timer.hold = false ∧ t.claims = [] ∧ t.map = [] ∧
    t.floor.state = .idle ∧ t.floor.holder = none ∧ t.floor.successor = none ∧ t.floor.yieldCount = 0 ∧
    t.floor.bidCount = 0 ∧ t.floor.yieldOwed = false ∧ t.floor.parkOwed = false ∧
    t.pacing.active = Params.defaults ∧ t.pacing.pending = Params.nothing ∧ t.pacing.holding = false ∧
    t.pacing.command = none ∧ t.item.number = 0 ∧ t.item.lastBoundary = none ∧ t.item.own = .none ∧
    t.line.idle = false ∧ t.line.lastSender = 16 ∧ t.line.queue = [] ∧ t.line.waiting = [] ∧ t.line.phase = 0 ∧
    t.line.mismatch = 0 ∧
    (∀ p, 1 ≤ p → p ≤ 16 → t.line.peers[p - 1]? =
      some { presence := if p = t.own then .present else .unknown, unheard := 0, floor := none, status := none }) ∧
    t.station.mode = .joining ∧ t.station.joinCount = 0 ∧ t.station.parkRemembered = false ∧
    t.report.queue = [] ∧ t.report.flags = Flags.clear

/-- R160: the strap pins are read at power-on and by no other command, and decode as the rule's table gives. -/
def Obligations.StrapsReadAtPowerOn : Prop :=
  (∀ (pins : StrapPins) (m : Moment) (s t : State), exec (.powerOn pins m) s = .next t → t.straps = pins) ∧
  (∀ (c : Instr) (s t : State), (∀ pins m, c ≠ .powerOn pins m) → exec c s = .next t → t.straps = s.straps) ∧
  (∀ s : State, s.own = s.straps.station.toNat + 1 ∧ (s.fps = if s.straps.rate = true then 30 else 25) ∧
    (s.displayRows = if s.straps.rows = true then 3 else 2) ∧
    (s.rowWidth = if s.straps.width.toNat ≤ 10 then 32 + s.straps.width.toNat else 42) ∧
    (s.anchoredStrap = true ↔ s.straps.follow = false) ∧
    (autoTakeDue s = true → s.straps.auto = true))

/-- R164: MUTE ends only at POWER_ON; no park stays owed in it. With the floor state IDLE, as it is there, it stays IDLE and the
pace state keeps its value, as R69 says (over R66: the model's choice, log entry 38). -/
def Obligations.MuteLasts : Prop :=
  ∀ (i : Instr) (s t : State), s.station.mode = .mute → s.floor.parkOwed = false → exec i s = .next t →
    (∀ pins m, i ≠ .powerOn pins m) → t.station.mode = .mute ∧ t.floor.parkOwed = false ∧
      (s.floor.state = .idle → t.floor.state = .idle ∧ t.timer.pace = s.timer.pace)

/-! ### Frame Time -/

/-- R2: the distance from `a` to `b` is `b - a` modulo D, in −D/2..D/2−1. -/
def Obligations.DistanceIsSigned : Prop :=
  ∀ day a b : Nat, 0 < day → day % 2 = 0 →
    -(day : Int) / 2 ≤ frameDist day a b ∧ frameDist day a b ≤ (day : Int) / 2 - 1 ∧
    ((day : Int) ∣ frameDist day a b - ((b : Int) - (a : Int)))

/-- R4, R5, R6: a pulse half a period or more after the reference instant makes a boundary and sets the instant; in tolerance
it raises the good-pulse count, to at most 8, and out of tolerance it zeroes it. An earlier pulse moves the instant,
zeroes the count and closes an open guard window, and nothing else changes. The flywheel makes a boundary 1.02P after the
instant, which moves on by exactly one period; the count becomes 0 and REF_LOST is flagged. -/
def Obligations.PulsesMakeBoundaries : Prop :=
  (∀ (t : Moment) (s : State), s.period ≤ 2 * (t - s.ref.refInstant) →
    exec (.referencePulse t) s = .next (boundary t { s with ref := { s.ref with
      refInstant := t, setByPulse := true,
      goodPulses :=
        if s.ref.setByPulse = true ∧ 98 * s.period ≤ 100 * (t - s.ref.refInstant) ∧
            100 * (t - s.ref.refInstant) ≤ 102 * s.period then min 8 (s.ref.goodPulses + 1) else 0 } })) ∧
  (∀ (t : Moment) (s : State), 2 * (t - s.ref.refInstant) < s.period →
    exec (.referencePulse t) s = .next { s with ref := { s.ref with
      refInstant := t, setByPulse := true, goodPulses := 0, guardOpen := false } }) ∧
  (∀ s : State, exec .flywheelExpiry s = .next (boundary (s.ref.refInstant + 102 * s.period / 100)
    (State.flagged .refLost { s with ref := { s.ref with
      refInstant := s.ref.refInstant + s.period, setByPulse := false, goodPulses := 0 } })))

/-- R1, R3, R10, R11, R12, R14, R118, R119, R145, R148, R156, R157, R161, R163: what a boundary makes of the Reference Unit: n
counts on by one or takes the pending timecode load, which is a step when it is not the frame counted and flags TIME_STEP
when it is more than one away, the silence counts rise or start anew, and the time status follows them. The waits rise by
one: the yield count until the yield is owed, the bid count while it runs, the join and reset counts in their modes, the
STATE phase count, and the unheard count of every present peer; the mismatch count falls. The other blocks then act, in
the order of log entry 5. -/
def Obligations.BoundaryNumbersFrame : Prop :=
  ∀ (t : Moment) (s : State),
    let load := if s.straps.follow = true then none else s.ref.pendingLoad
    let tc := if load.isSome then 0 else min 10 (s.ref.tcSilence + 1)
    let peer := if s.ref.sourceSeen = true then s.ref.peerSilence else min (3 * s.fps) (s.ref.peerSilence + 1)
    let loaded := if load.isSome then TimeStatus.anchored else s.ref.status
    let kept :=
      if s.straps.follow = false ∧ 10 ≤ tc ∧ loaded = .anchored then
        (if peer < 3 * s.fps then TimeStatus.following else .drifting) else loaded
    let counted := (s.ref.n + 1) % s.day
    let step := decide (∃ f ∈ load, s.dist counted f ≠ 0)
    let begun := beginFrame t s
    let acted := stateDueAct (bidExpiryAct (builderBoundary (deadlineAct (silenceAll stationNumbers
      (staleWaiting (showAndExpire step begun))))))
    (boundary t s).ref = { s.ref with
      n := load.getD ((s.ref.n + 1) % s.day), pendingLoad := if load.isSome then none else s.ref.pendingLoad,
      tcSilence := tc, peerSilence := peer, sourceSeen := false, guardOpen := false,
      status := if 3 * s.fps ≤ peer ∧ kept = .following then .drifting else kept } ∧
    begun.floor = { s.floor with
      yieldCount := s.floor.yieldCount + (if s.floor.state = .yielding ∧ s.floor.yieldOwed = false then 1 else 0),
      bidCount := s.floor.bidCount + (if s.floor.state = .bidding ∧ s.floor.bidRunning = true then 1 else 0) } ∧
    begun.station = { s.station with
      joinCount := s.station.joinCount + (if s.station.mode = .joining then 1 else 0),
      resetCount := s.station.resetCount + (if s.station.mode = .resetting then 1 else 0) } ∧
    begun.line = { s.line with
      idlePoint := if s.ref.guardOpen = true ∧ s.line.idle = true then t else s.line.idlePoint,
      receiving := s.line.receiving.map fun k => k + 1, phase := s.line.phase + 1, mismatch := s.line.mismatch - 1,
      peers := begun.line.peers } ∧
    (∀ p, 1 ≤ p → peerEntry p begun =
      if (peerEntry p s).presence = .present ∧ p ≠ s.own then
        { peerEntry p s with unheard := (peerEntry p s).unheard + 1 } else peerEntry p s) ∧
    begun.report = (if ∃ f ∈ load, 1 < s.dist counted f ∨ s.dist counted f < -1 then
      (State.flagged .timeStep s).report else s.report) ∧
    begun.text = s.text ∧ begun.script = s.script ∧ begun.timer = s.timer ∧ begun.claims = s.claims ∧ begun.map = s.map ∧
    begun.pacing = s.pacing ∧ begun.item = s.item ∧
    boundary t s = finish (joinAct (resetCountAct { acted with timer := { acted.timer with hold := false } }))

/-- R15, R27, R31, R74, R78, R79, R104: at a boundary every CLAIMED claim whose show is the new n goes on air, and at a step
every one whose show is at or before it, whichever way the step goes (for a backward step the model's choice, log entry
37); no cue whose off bound is at or before n stays in the map, and the other cues stand. The claim of an own cue that
leaves ends: it leaves the list with its unstarted REVISE and, as the only report, an OFF (that a revision goes so is
DEDUCED, log entry 9), after the ON AIR reports of a step, and every other claim stands; with no cue to leave, the ON AIR
reports are all that is added, in the order of the Claim List (the model's choice, log entry 53; that of the OFF reports
is log entry 42). PLANNED claims fewer than 4 frames before their show are handed back; queued blocks older than Lmax
leave STALE; and the idle count of a non-empty Compose Buffer rises, closing it when it reaches Pi. -/
def Obligations.BoundaryAirsAndExpires : Prop :=
  (∀ (step : Bool) (s : State),
    let due := fun c : Claim => c.state = .claimed ∧ (c.showAt = s.n ∨ (step = true ∧ 0 ≤ s.dist c.showAt s.n))
    let gone := fun c : Claim => ∃ d ∈ s.map, d.owner = s.own ∧ d.seq = c.seq ∧ 0 ≤ s.dist d.offBound s.n
    let u := showAndExpire step s
    (∀ c ∈ u.claims, c.state = .claimed → c.showAt ≠ s.n ∧ (step = true → s.dist c.showAt s.n < 0)) ∧
    (∀ c ∈ u.claims, c.state = .onAir → c ∈ s.claims ∨
      ∃ d ∈ s.claims, d.state = .claimed ∧ c = { d with state := .onAir } ∧
        (d.showAt = s.n ∨ (step = true ∧ 0 ≤ s.dist d.showAt s.n))) ∧
    (∀ c ∈ s.claims, ¬ gone c → (due c → { c with state := .onAir } ∈ u.claims) ∧ (¬ due c → c ∈ u.claims)) ∧
    ((s.claims.map Claim.seq).Nodup → ∀ c ∈ u.claims, c.state = .claimed ∨ c.state = .onAir → ¬ gone c) ∧
    ((∀ d ∈ s.map, s.dist d.offBound s.n < 0) →
      u = pushReports ((s.claims.filter fun c => decide (due c)).map fun c => .onAir c.seq s.n)
        { s with claims := (s.claims.map fun c => if due c then { c with state := .onAir } else c) }) ∧
    (step = true ∨ (∀ c ∈ s.claims, ¬ due c) →
      u = (s.map.filter fun d => decide (0 ≤ s.dist d.offBound s.n)).foldl
        (fun v d => if d.owner = s.own then endClaim d.seq v else v)
        (pushReports ((s.claims.filter fun c => decide (due c)).map fun c => .onAir c.seq s.n)
          { s with
            claims := (s.claims.map fun c => if due c then { c with state := .onAir } else c),
            map := s.map.filter fun d => decide (s.dist d.offBound s.n < 0) })) ∧
    u.map = s.map.filter fun c => decide (s.dist c.offBound s.n < 0)) ∧
  (∀ (seq : Byte) (s : State),
    let ends := fun c : Claim => c.seq = seq ∧ (c.state = .claimed ∨ c.state = .onAir)
    ((∀ c ∈ s.claims, ¬ ends c) → endClaim seq s = s) ∧
    (∀ before c after, s.claims = before ++ c :: after → (∀ d ∈ before, ¬ ends d) → ends c →
      endClaim seq s = pushReport (.off seq s.n) (removeUnstarted (PacketKind.isReviseOf seq)
        { s with claims := before ++ after }))) ∧
  (∀ s : State,
    let old := fun b : Block => (s.pacing.active.lmax : Int) < s.dist b.arrival s.n
    let risen := { ageQueue s with text := { (ageQueue s).text with idleCount := s.text.idleCount + 1 } }
    staleWaiting s = handBack (fun c => decide (s.dist s.n c.showAt < 4)) s ∧
    (∀ c ∈ (staleWaiting s).claims, c.state = .planned → 4 ≤ s.dist s.n c.showAt) ∧
    (∀ c ∈ s.claims, c.state ≠ .planned → c ∈ (staleWaiting s).claims) ∧
    ((∀ b ∈ s.text.queue, ¬ old b) → ageQueue s = s) ∧
    (∀ b rest, s.text.queue = b :: rest → (∃ x ∈ s.text.queue, old x) →
      ageQueue s = pushReports ((s.text.queue.filter fun x => decide (old x)).map fun x => .dropped .stale (some x.seq))
        (State.flagged .staleDrop { s with
          text := { s.text with queue := s.text.queue.filter fun x => decide (¬ old x) },
          timer := { s.timer with hold := if old b then false else s.timer.hold } })) ∧
    (s.text.composeEmpty = true → builderBoundary s = ageQueue s) ∧
    (s.text.composeEmpty = false → builderBoundary s =
      if s.pacing.active.pi ≤ s.text.idleCount + 1 then closeBlock .idle (completeWord risen) else risen))

/-- R8, R9, R11, R14: the guard window opens; a valid timecode value sets the pending load of an ANCHORED-strapped station to
the frame after the one it names, and any other value is discarded; timecode lost while ANCHORED gives FOLLOWING, or
DRIFTING when anchored peers are silent too; peer time lost while FOLLOWING gives DRIFTING. Nothing else changes. -/
def Obligations.TimeEventsSetStatus : Prop :=
  (∀ s : State, exec .guardWindowOpen s = .next { s with ref := { s.ref with guardOpen := true } }) ∧
  (∀ (h m sec f : Nat) (s : State), exec (.timecodeValue h m sec f) s = .next
    (if s.straps.follow = false ∧ h ≤ 23 ∧ m ≤ 59 ∧ sec ≤ 59 ∧ f ≤ s.fps - 1 then
      { s with ref := { s.ref with
          pendingLoad := some ((h * 3600 * s.fps + m * 60 * s.fps + sec * s.fps + f + 1) % s.day) } }
    else s)) ∧
  (∀ s : State, s.straps.follow = false → 10 ≤ s.ref.tcSilence → s.ref.status = .anchored →
    exec .timecodeLost s = .next { s with ref := { s.ref with
      status := if s.ref.peerSilence < 3 * s.fps then .following else .drifting } }) ∧
  (∀ s : State, 3 * s.fps ≤ s.ref.peerSilence → s.ref.status = .following →
    exec .peerTimeSilenceExpiry s = .next { s with ref := { s.ref with status := .drifting } })

/-- R7, R169: ALERT is lit while the station is MUTE, UNLOCKED, DRIFTING or in a configuration mismatch, and dark otherwise. -/
def Obligations.AlertFollowsConditions : Prop :=
  ∀ s : State, s.alert = true ↔
    s.station.mode = .mute ∨ s.ref.goodPulses ≠ 8 ∨ s.ref.status = .drifting ∨ 0 < s.line.mismatch

/-! ### Text -/

/-- R18: a character other than the space joins the word in formation while that is shorter than W; the first one of a word
gives it its arrival frame, and an empty block its own. A space with no word in formation only restarts the idle count. -/
def Obligations.CharacterJoinsWord : Prop :=
  ∀ (c : Byte) (s : State), TextReady s → isCharacter c = true →
    (c ≠ spaceByte → s.text.word.length < s.rowWidth →
      exec (.character c) s = .next (finish { s with text := { s.text with
        word := s.text.word ++ [c],
        wordArrival := if s.text.word = [] then some s.n else s.text.wordArrival,
        arrival := if s.text.word = [] ∧ s.text.openText.rows = [] then some s.n else s.text.arrival,
        idleCount := 0 } })) ∧
    (c = spaceByte → s.text.word = [] →
      exec (.character c) s = .next (finish { s with text := { s.text with idleCount := 0 } }))

/-- R18, R19, R24: a space, or a character after a word of W characters, completes the word: it is placed, and a sentence end
closes a block of 16 characters or more; the idle count restarts, and the further character begins a new word. -/
def Obligations.WordCompletes : Prop :=
  ∀ (c : Byte) (s : State), TextReady s → isCharacter c = true → s.text.word ≠ [] →
    (c = spaceByte ∨ s.rowWidth ≤ s.text.word.length) →
    let placed := placeWord s.text.word (s.text.wordArrival.getD s.n)
      { s with text := { s.text with word := [], wordArrival := none } }
    let closed :=
      if isSentenceEnd s.text.word = true ∧ 16 ≤ placed.text.openText.count then closeBlock .sentence placed else placed
    exec (.character c) s = .next (finish (restartIdle (if c = spaceByte then closed else addCharacter c closed)))

/-- R21, R22: a placed word opens the block, joins the last row, opens row 2, or closes a full block and opens a new one; the
speaker prefix takes 2 places before the first word, which goes to row 2 when it does not fit beside it. -/
def Obligations.WordsFillRows : Prop :=
  ∀ (w : TextWord) (a : Frame) (s : State),
    let width := s.rowWidth
    let opening : Text :=
      if s.text.speakerMark = true then
        (if 2 + w.length ≤ width then { rows := [[w]], speaker := true } else { rows := [[], [w]], speaker := true })
      else { rows := [[w]], speaker := false }
    (s.text.openText.rows = [] → placeWord w a s = { s with text := { s.text with
      openText := opening, speakerMark := false, arrival := some a } }) ∧
    (∀ r, s.text.openText.rows = [r] →
      let len := (joinWords r).length + if s.text.openText.speaker = true then 2 else 0
      placeWord w a s = { s with text := { s.text with openText := { s.text.openText with
        rows := if len + 1 + w.length ≤ width then [r ++ [w]] else [r, [w]] } } }) ∧
    (∀ r q, s.text.openText.rows = [r, q] →
      ((joinWords q).length + 1 + w.length ≤ width →
        placeWord w a s = { s with text := { s.text with openText := { s.text.openText with rows := [r, q ++ [w]] } } }) ∧
      (width < (joinWords q).length + 1 + w.length →
        placeWord w a s = openBlock w a (closeBlock .full s)))

/-- R23, R30: a close gives the block its sequence, close frame, cause and item number and the source LIVE, empties the Compose
Buffer and stops the idle count; the block enters the tail of the queue with its QUEUED report, the head of a full queue having
been dropped OVERFLOW before it. -/
def Obligations.CloseEntersQueue : Prop :=
  ∀ (cause : CloseCause) (s : State),
    let b : Block :=
      { seq := s.text.nextSeq, text := s.text.openText, arrival := s.text.arrival.getD s.n, closeFrame := s.n, cause := cause,
        item := s.item.number, source := .live }
    let queued := Report.queued b.seq b.text.count cause s.n
    let emptied : BlockBuilder :=
      { s.text with openText := Text.empty, arrival := none, idleCount := 0, nextSeq := s.text.nextSeq + 1 }
    (s.text.queue.length < 16 →
      closeBlock cause s = pushReport queued { s with text := { emptied with queue := s.text.queue ++ [b] } }) ∧
    (∀ head rest, s.text.queue = head :: rest → 16 ≤ s.text.queue.length →
      closeBlock cause s = pushReport queued (pushReport (.dropped .overflow (some head.seq))
        (State.flagged .queueOverflow { s with
          text := { emptied with queue := rest ++ [b] }, timer := { s.timer with hold := false } })))

/-- R25, R26, R27, R39: END-BLOCK, SPEAKER and a due idle close complete the word in formation and close a non-empty block with
their cause; SPEAKER then sets the speaker mark. -/
def Obligations.CodesCloseOpenBlock : Prop :=
  (∀ s : State, TextReady s → exec .endBlock s = .next (finish (restartIdle
    (if s.text.composeEmpty = true then s else closeBlock .finish (completeWord s))))) ∧
  (∀ s : State, TextReady s →
    let u := restartIdle (if s.text.composeEmpty = true then s else closeBlock .speaker (completeWord s))
    exec .speaker s = .next (finish { u with text := { u.text with speakerMark := true } })) ∧
  (∀ s : State, s.text.composeEmpty = false → s.pacing.active.pi ≤ s.text.idleCount →
    exec .idleClose s = .next (finish (closeBlock .idle (completeWord s))))

/-- R34, R35: RETRACT takes the word in formation, else the last word placed, else the last word of the block at the tail of
the queue, which reports REVISED. The last word is that of row 2 when there is one, and a row 2 left with no word goes
with it; a text left with no word is empty, and its prefix goes with it. -/
def Obligations.RetractTakesLastWord : Prop :=
  (∀ s : State, TextReady s →
    (s.text.word ≠ [] → exec .retract s = .next (finish { s with text := { s.text with
      word := [], wordArrival := none, idleCount := 0,
      arrival := if s.text.openText.hasWord = true then s.text.arrival else none } })) ∧
    (s.text.word = [] → s.text.openText.retracted.hasWord = true → s.text.openText.hasWord = true →
      exec .retract s = .next (finish { s with text := { s.text with
        openText := s.text.openText.retracted, idleCount := 0 } })) ∧
    (s.text.word = [] → s.text.openText.retracted.hasWord = false → s.text.openText.hasWord = true →
      exec .retract s = .next (finish { s with text := { s.text with
        openText := Text.empty, arrival := none, idleCount := 0,
        speakerMark := s.text.speakerMark || s.text.openText.speaker } })) ∧
    (∀ rest b, s.text.composeEmpty = true → s.text.queue = rest ++ [b] → b.text.retracted.hasWord = true →
      exec .retract s = .next (finish (pushReport (.revised b.seq) { s with text := { s.text with
        queue := rest ++ [{ b with text := b.text.retracted }] } }))) ∧
    (∀ rest b, s.text.composeEmpty = true → s.text.queue = rest ++ [b] → b.text.retracted.hasWord = false →
      exec .retract s = .next (finish (pushReport (.revised b.seq) { s with
        text := { s.text with queue := rest },
        timer := { s.timer with hold := s.timer.hold && !rest.isEmpty } })))) ∧
  (∀ (r q : List TextWord) (w : TextWord) (speaker : Bool),
    Text.retracted { rows := [[w]], speaker := speaker } = Text.empty ∧
    Text.retracted { rows := [[], [w]], speaker := speaker } = Text.empty ∧
    (r ≠ [] → Text.retracted { rows := [r ++ [w]], speaker := speaker } = { rows := [r], speaker := speaker }) ∧
    (r ≠ [] → Text.retracted { rows := [r, [w]], speaker := speaker } = { rows := [r], speaker := speaker }) ∧
    (q ≠ [] → Text.retracted { rows := [r, q ++ [w]], speaker := speaker } = { rows := [r, q], speaker := speaker }))

/-- R84, R85, R86: a retraction that reaches the claims is LATE when no claim is left to take it, shortens a PLANNED claim in
place or removes it when no word is left, is LATE for a claim on air, fewer than 5 frames from its show, or off the floor, and
otherwise shortens the revision of a SENDING or CLAIMED claim and asks for its REVISE unless one waits, or withdraws the claim
when no word is left. -/
def Obligations.RetractReachesClaims : Prop :=
  ∀ s : State, TextReady s → s.text.composeEmpty = true → s.text.queue = [] →
    (newestClaim s.claims = none → exec .retract s = .next (finish (pushReport (.late none) s))) ∧
    (∀ c, newestClaim s.claims = some c → c.state = .planned → c.text.retracted.hasWord = true →
      exec .retract s = .next (finish (pushReport (.revised c.seq)
        { s with claims := (s.claims.map fun d => if d.seq = c.seq then { d with text := c.text.retracted } else d) }))) ∧
    (∀ c, newestClaim s.claims = some c → c.state = .planned → c.text.retracted.hasWord = false →
      exec .retract s = .next (finish (pushReport (.revised c.seq) (removeUnstarted (PacketKind.isCueOf c.seq)
        { s with claims := s.claims.eraseP fun d => decide (d.seq = c.seq ∧ d.state = .planned) })))) ∧
    (∀ c, newestClaim s.claims = some c → c.state ≠ .planned →
      (c.state = .onAir ∨ s.dist s.n c.showAt < 5 ∨ s.floor.state = .idle ∨ s.floor.state = .bidding) →
      exec .retract s = .next (finish (pushReport (.late (some c.seq)) s))) ∧
    (∀ c left, newestClaim s.claims = some c → (c.state = .sending ∨ c.state = .claimed) → 5 ≤ s.dist s.n c.showAt →
      (s.floor.state = .live ∨ s.floor.state = .yielding) → left = (c.revision.getD c.text).retracted →
      (left.hasWord = true →
        (∀ q ∈ s.line.queue, q.kind = .revise c.seq → q.sent.isSome = true) →
        (∀ q ∈ s.line.waiting, q.kind ≠ .revise c.seq) →
        exec .retract s = .next (finish (requestPacket (.revise c.seq)
          { s with claims := (s.claims.map fun d => if d.seq = c.seq then { d with revision := some left } else d) }))) ∧
      (left.hasWord = true →
        ((∃ q ∈ s.line.queue, q.kind = .revise c.seq ∧ q.sent = none) ∨ ∃ q ∈ s.line.waiting, q.kind = .revise c.seq) →
        exec .retract s = .next (finish
          { s with claims := (s.claims.map fun d => if d.seq = c.seq then { d with revision := some left } else d) })) ∧
      (left.hasWord = false →
        exec .retract s = .next (finish (withdraw c.seq c.showAt .none
          { s with claims := (s.claims.map fun d => if d.seq = c.seq then { d with emptied := true } else d) }))))

/-- R17, R37, R163, R173: a discarded byte flags TEXT_ERROR, and an unassigned control code also ends an open PACE command; in
RESETTING every byte of the text port is ignored. -/
def Obligations.BytesDiscardedOrIgnored : Prop :=
  (∀ (framingError : Bool) (b : Byte) (s : State), s.station.mode ≠ .resetting →
    exec (.discardedByte framingError b) s = .next (State.flagged .textError
      (if framingError = false ∧ isControl b = true then { s with pacing := { s.pacing with command := none } } else s))) ∧
  (∀ (i : Instr) (s : State), s.station.mode = .resetting →
    i ∈ [.endBlock, .speaker, .retract, .scriptBegin, .scriptEnd, .loopOn, .loopOff, .next, .take, .yield, .park, .unpark,
      .hold, .release, .status, .reset, .paceIntroducer, .paceTerminator] ∨ (∃ c, i = .character c) ∨
      (∃ e b, i = .discardedByte e b) →
    exec i s = .next s)

/-! ### The Script Store -/

/-- R38, R40, R43: SCRIPT-BEGIN empties the store and starts loading, and the loop flag stays; SCRIPT-END completes the loading
word, stores a non-empty loading block and ends loading, and is ignored in NOT_LOADING; LOOP-ON and LOOP-OFF set the loop flag.
Nothing else changes. -/
def Obligations.ScriptCodesRunStore : Prop :=
  ∀ s : State, s.station.mode ≠ .resetting →
    let u := closeCommand s
    (exec .scriptBegin s = .next { u with script :=
      { load := .loading, stored := [], loadText := Text.empty, loadWord := [], loadMark := false, storedChars := 0,
        pointer := 1, loop := s.script.loop } }) ∧
    (s.script.load = .notLoading → exec .scriptEnd s = .next u) ∧
    (s.script.load = .discarding → exec .scriptEnd s = .next { u with script :=
      { s.script with loadMark := false, load := .notLoading } }) ∧
    (s.script.load = .loading → s.script.loadWord = [] → exec .scriptEnd s = .next { u with script :=
      { s.script with
        loadMark := false, load := .notLoading,
        stored := if s.script.loadText.hasWord = true then s.script.stored ++ [s.script.loadText] else s.script.stored,
        loadText := if s.script.loadText.hasWord = true then Text.empty else s.script.loadText } }) ∧
    (s.script.load = .loading → s.script.loadWord ≠ [] → exec .scriptEnd s = .next { completeLoading u with script :=
      { (completeLoading u).script.storeLoading with loadMark := false, load := .notLoading } }) ∧
    (exec .loopOn s = .next { u with script := { s.script with loop := true } }) ∧
    (exec .loopOff s = .next { u with script := { s.script with loop := false } })

/-- R41: a loading word placed while it fits both limits adds its own length, and 1 more when it joins a row or 2 more with a
speaker prefix, to the stored characters, and stores the block it does not fit before it opens a new one; a word that does not
fit the store fills it: the loading block is stored, the word
discarded, DISCARDING entered and SCRIPT_FULL flagged. -/
def Obligations.LoadedWordFitsOrFills : Prop :=
  ∀ s : State, s.script.loadWord ≠ [] → s.script.loadText.LaidOrNone s.rowWidth →
    let w := s.script.loadWord
    let more :=
      if s.script.loadText.rows = [] then w.length + (if s.script.loadMark = true then 2 else 0)
      else if s.script.loadText.lastLength + 1 + w.length ≤ s.rowWidth then w.length + 1
      else if s.script.loadText.rows.length = 1 then w.length
      else w.length + (if s.script.loadMark = true then 2 else 0)
    let opens := s.script.loadText.rows = [] ∨
      (s.script.loadText.rows.length = 2 ∧ s.rowWidth < s.script.loadText.lastLength + 1 + w.length)
    let fits := s.script.storedChars + more ≤ 4096 ∧
      (opens → s.script.stored.length + (if s.script.loadText.rows = [] then 0 else 1) < 64)
    (fits → ∃ u, completeLoading s = { s with script := u } ∧ u.storedChars = s.script.storedChars + more ∧
      u.load = s.script.load ∧ u.loadWord = [] ∧ u.pointer = s.script.pointer ∧ u.loop = s.script.loop ∧
      (¬ opens → u.stored = s.script.stored ∧ u.loadMark = s.script.loadMark ∧
        u.loadText = if s.script.loadText.lastLength + 1 + w.length ≤ s.rowWidth then s.script.loadText.joined w
          else s.script.loadText.withRow w) ∧
      (opens → u.loadMark = false ∧ u.loadText = Text.opened s.rowWidth s.script.loadMark w ∧
        u.stored = if s.script.loadText.rows = [] then s.script.stored else s.script.stored ++ [s.script.loadText])) ∧
    (¬ fits → completeLoading s = State.flagged .scriptFull { s with script := { s.script with
      load := .discarding, loadWord := [],
      stored := if s.script.loadText.rows = [] then s.script.stored else s.script.stored ++ [s.script.loadText],
      loadText := if s.script.loadText.rows = [] then s.script.loadText else Text.empty } })

/-- R30, R44, R45: NEXT is answered BUSY while loading and SCRIPT END with nothing to release; otherwise it releases the block
at the pointer, which the loop flag returns to 1 past the last block. The released block takes a fresh sequence, arrives
and closes at n with cause END, and carries the source SCRIPT; it enters the tail of the queue with its QUEUED report, the
head of a full queue having been dropped OVERFLOW before it. -/
def Obligations.NextReleasesBlock : Prop :=
  (∀ s : State, s.station.mode ≠ .resetting →
    let u := closeCommand s
    (s.script.load ≠ .notLoading → exec .next s = .next (finish (pushReport .busy u))) ∧
    (s.script.load = .notLoading → s.script.stored = [] → exec .next s = .next (finish (pushReport .scriptEnd u))) ∧
    (s.script.load = .notLoading → s.script.stored.length < s.script.pointer → s.script.loop = false →
      exec .next s = .next (finish (pushReport .scriptEnd u))) ∧
    (∀ t, s.script.load = .notLoading → 1 ≤ s.script.pointer → s.script.stored[s.script.pointer - 1]? = some t →
      exec .next s = .next (finish (releaseBlock t { u with script :=
        { s.script with pointer := s.script.pointer + 1 } }))) ∧
    (∀ t, s.script.load = .notLoading → s.script.stored.length < s.script.pointer → s.script.loop = true →
      s.script.stored[0]? = some t →
      exec .next s = .next (finish (releaseBlock t { u with script := { s.script with pointer := 2 } })))) ∧
  (∀ (x : Text) (s : State),
    let b : Block := { seq := s.text.nextSeq, text := x, arrival := s.n, closeFrame := s.n, cause := .finish,
                       item := s.item.number, source := .script }
    let queued := Report.queued b.seq x.count .finish s.n
    (s.text.queue.length < 16 → releaseBlock x s = pushReport queued { s with text := { s.text with
      nextSeq := s.text.nextSeq + 1, queue := s.text.queue ++ [b] } }) ∧
    (∀ head rest, s.text.queue = head :: rest → 16 ≤ s.text.queue.length →
      releaseBlock x s = pushReport queued (pushReport (.dropped .overflow (some head.seq))
        (State.flagged .queueOverflow { s with
          text := { s.text with nextSeq := s.text.nextSeq + 1, queue := rest ++ [b] },
          timer := { s.timer with hold := false } }))))

/-- R17, R39, R41, R42: while the store is LOADING or DISCARDING, text units go to the store: the act leaves everything but
the store and the SCRIPT_FULL flag as it was, and in DISCARDING the store too. While LOADING a character joins the loading
word, and a space, or a character after W of them, completes it; END-BLOCK completes it and stores a non-empty loading
block; SPEAKER does so and sets the loading mark. RETRACT takes the loading word, else the last word of the loading block,
whose prefix goes with its last word and sets the mark again, else the last word of the last stored block, which leaves
when no word is left. -/
def Obligations.LoadingTextGoesToStore : Prop :=
  (∀ (i : Instr) (s : State), s.station.mode ≠ .resetting → s.pacing.command = none → s.script.load ≠ .notLoading →
    i ∈ [.endBlock, .speaker, .retract] ∨ (∃ c, isCharacter c = true ∧ i = .character c) →
    ∃ u, exec i s = .next (finish u) ∧ (u = { s with script := u.script } ∨
      u = { s with script := u.script, report := { s.report with flags := s.report.flags.raise .scriptFull } })) ∧
  (∀ s : State, s.station.mode ≠ .resetting → s.pacing.command = none → s.script.load = .loading →
    let u := s.script
    let left := u.loadText.retracted
    (u.loadWord ≠ [] → exec .retract s = .next (finish { s with script := { u with loadWord := [] } })) ∧
    (u.loadWord = [] → u.loadText.hasWord = true → exec .retract s = .next (finish { s with script := { u with
      loadText := left, loadMark := u.loadMark || (!left.hasWord && u.loadText.speaker),
      storedChars := u.storedChars - (u.loadText.count - left.count) } })) ∧
    (∀ rest b, u.loadWord = [] → u.loadText.hasWord = false → u.stored = rest ++ [b] →
      exec .retract s = .next (finish { s with script := { u with
        stored := if b.retracted.hasWord = true then rest ++ [b.retracted] else rest,
        storedChars := u.storedChars - (b.count - b.retracted.count) } })) ∧
    (u.loadWord = [] → u.loadText.hasWord = false → u.stored = [] → exec .retract s = .next (finish s))) ∧
  (∀ s : State, s.station.mode ≠ .resetting → s.pacing.command = none → s.script.load = .loading →
    let u := s.script
    let placed := if u.loadWord = [] then s else completeLoading s
    let stored := if placed.script.loadText.hasWord = true then { placed with script := { placed.script with
        stored := placed.script.stored ++ [placed.script.loadText], loadText := Text.empty } } else placed
    (∀ c, isCharacter c = true → c ≠ spaceByte → u.loadWord.length < s.rowWidth →
      exec (.character c) s = .next (finish { s with script := { u with loadWord := u.loadWord ++ [c] } })) ∧
    (exec (.character spaceByte) s = .next (finish placed)) ∧
    (∀ c, isCharacter c = true → c ≠ spaceByte → s.rowWidth ≤ u.loadWord.length →
      exec (.character c) s = .next (finish (if placed.script.load = .loading then
        { placed with script := { placed.script with loadWord := [c] } } else placed))) ∧
    exec .endBlock s = .next (finish stored) ∧
    exec .speaker s = .next (finish { stored with script := { stored.script with loadMark := true } })) ∧
  (∀ (i : Instr) (s : State), s.station.mode ≠ .resetting → s.pacing.command = none → s.script.load = .discarding →
    i ∈ [.endBlock, .speaker, .retract] ∨ (∃ c, isCharacter c = true ∧ i = .character c) → exec i s = .next (finish s))

/-! ### Timing a cue -/

/-- R54, R55: BOTTOM takes rows 1..k; RAISED takes rows 2..k+1 when they lie within R, and rows 1..k otherwise. The earliest
show on the chosen rows is the latest, by distance from n, of the frame 6 after n, the frame G after every minimum-off
there that is still to come in the map, and the frame G after the minimum-off of every own claim on them that is not yet
in the map. -/
def Obligations.ShowFollowsFirmEnds : Prop :=
  (∀ (s : State) (k : Nat), chooseLow s k =
    if s.pacing.active.placement = 1 then (if k + 1 ≤ s.displayRows then 2 else 1) else 1) ∧
  (∀ (s : State) (low k : Nat),
    let e := earliestShow s low k
    let g := s.pacing.active.g
    let firm := fun d : Cue => spansShare d.low d.count low k = true ∧ 0 < s.dist s.n d.minOff
    let unmapped := fun c : Claim =>
      (c.state = .planned ∨ c.state = .sending) ∧ spansShare c.low c.count low k = true
    s.dist s.n (s.plus s.n 6) ≤ s.dist s.n e ∧
    (∀ d ∈ s.map, firm d → s.dist s.n (s.plus d.minOff g) ≤ s.dist s.n e) ∧
    (∀ c ∈ s.claims, unmapped c → s.dist s.n (s.plus c.minOff g) ≤ s.dist s.n e) ∧
    (e = s.plus s.n 6 ∨ (∃ d ∈ s.map, firm d ∧ e = s.plus d.minOff g) ∨
      ∃ c ∈ s.claims, unmapped c ∧ e = s.plus c.minOff g))

/-- R59, R60, R61, R62: the pace state after a lag; the base duration is c × F × 10 / r rounded up, 1 to 420 frames for every
count and legal rate; compression takes off the whole part of x × k / 8; the clamp holds the result to Dmin..Dmax. -/
def Obligations.LagSetsPaceAndDuration : Prop :=
  (∀ (v : Params Nat) (lag : Int),
    ((v.t : Int) < lag → nextPace v .normal lag = .catchUp) ∧ (lag ≤ v.t → nextPace v .normal lag = .normal) ∧
    (lag < (v.t : Int) - v.h → nextPace v .catchUp lag = .normal) ∧
    ((v.t : Int) - v.h ≤ lag → nextPace v .catchUp lag = .catchUp)) ∧
  (∀ c f r : Nat, 1 ≤ c → c ≤ 84 → (f = 25 ∨ f = 30) → 60 ≤ r → r ≤ 250 →
    1 ≤ baseDuration c f r ∧ baseDuration c f r ≤ 420 ∧
    c * f * 10 ≤ baseDuration c f r * r ∧ baseDuration c f r * r < c * f * 10 + r) ∧
  (∀ (v : Params Nat) (lag : Int) (d : Nat), compressed v .normal lag d = d ∧
    ∃ cut : Nat, compressed v .catchUp lag d = (d : Int) - cut ∧
      8 * (cut : Int) ≤ max (lag - v.t) 0 * v.k ∧ max (lag - v.t) 0 * v.k < 8 * (cut : Int) + 8) ∧
  (∀ (v : Params Nat) (d : Int), v.dmin ≤ v.dmax →
    (d < v.dmin → clampDuration v d = v.dmin) ∧ ((v.dmax : Int) < d → clampDuration v d = v.dmax) ∧
    ((v.dmin : Int) ≤ d → d ≤ v.dmax → (clampDuration v d : Int) = d))

/-- R50, R52, R57 to R63: an attempt takes the head block, after the pending AT_BLOCK values have become active unless the set
is holding. It holds the block when its show lies more than 500 frames ahead, drops it STALE when its lag exceeds Lmax,
and otherwise makes one PLANNED claim at the end of the list (whatever its show: the model's choice, log entry 47), 500
frames ahead or less, within Lmax, with minimum-off the clamped duration and linger-off Dlin frames after its show, and
asks for its CUE. -/
def Obligations.AttemptHoldsDropsOrPlans : Prop :=
  (∀ (b : Block) (rest : List Block) (s : State), s.text.queue = b :: rest → attempt s = planBlock b (reflectAtBlock s)) ∧
  (∀ s : State, s.pacing.active.Legal →
    let v := { s.pacing.active with
      r := s.pacing.pending.r.getD s.pacing.active.r, dmin := s.pacing.pending.dmin.getD s.pacing.active.dmin,
      dmax := s.pacing.pending.dmax.getD s.pacing.active.dmax, dlin := s.pacing.pending.dlin.getD s.pacing.active.dlin,
      g := s.pacing.pending.g.getD s.pacing.active.g }
    let w := { s with pacing := { s.pacing with
      active := v.crossLimited,
      pending := { s.pacing.pending with r := none, dmin := none, dmax := none, dlin := none, g := none } } }
    (s.pacing.holding = true → reflectAtBlock s = s) ∧
    (s.pacing.holding = false →
      reflectAtBlock s = if v.crossLimited = v then w else State.flagged .paramClamped w)) ∧
  (∀ (b : Block) (s : State), s.pacing.active.dmin ≤ s.pacing.active.dmax →
    let p := s.pacing.active
    let e := earliestShow s (chooseLow s b.text.rows.length) b.text.rows.length
    (500 < s.dist s.n e → planBlock b s = { s with timer := { s.timer with hold := true } }) ∧
    (s.dist s.n e ≤ 500 → (p.lmax : Int) < s.dist b.arrival e →
      planBlock b s = pushReport (.dropped .stale (some b.seq)) (State.flagged .staleDrop
        { s with text := { s.text with queue := s.text.queue.drop 1 } })) ∧
    (s.dist s.n e ≤ 500 → s.dist b.arrival e ≤ p.lmax →
      ∃ (c : Claim) (d : Nat) (pace : Pace),
        planBlock b s = requestPacket (.cue b.seq) { s with
          text := { s.text with queue := s.text.queue.drop 1 }, timer := { s.timer with pace := pace },
          claims := s.claims ++ [c] } ∧
        pace = nextPace p s.timer.pace (s.dist b.arrival e) ∧ p.dmin ≤ d ∧ d ≤ p.dmax ∧
        d = clampDuration p (compressed p pace (s.dist b.arrival e) (baseDuration b.text.count s.fps p.r)) ∧
        c.state = .planned ∧ c.seq = b.seq ∧ c.text = b.text ∧ c.item = b.item ∧ c.source = b.source ∧
        c.showAt = e ∧ c.minOff = s.plus e d ∧ c.lingerOff = s.plus e p.dlin ∧ c.gap = p.g ∧
        c.low = chooseLow s b.text.rows.length ∧ c.count = b.text.rows.length ∧ c.withdrawal = none ∧ c.revision = none))

/-- R72, R32: a hand-back takes the first PLANNED claim that the test picks, and every PLANNED claim after it, from the Claim
List, and no other claim; their CUEs that have not started (but no REVISE: the model's choice, log entry 39) leave the
Transmit Queue and the waiting requests, which take the places freed; and their blocks stand at the head of the Block
Queue in claim order, when they fit it, with no report, a hold ended. -/
def Obligations.HandBackKeepsOrder : Prop :=
  ∀ (p : Claim → Bool) (s : State),
    let gone := plannedFrom p s.claims
    let cueOfGone := fun k : PacketKind => ∃ c ∈ gone, k = .cue c.seq
    let queued := s.line.queue.filter fun q => decide (q.sent ≠ none ∨ ¬ cueOfGone q.kind)
    let waiting := s.line.waiting.filter fun q => decide (¬ cueOfGone q.kind)
    (∀ before c after, s.claims = before ++ c :: after → (∀ d ∈ before, ¬ (d.state = .planned ∧ p d = true)) →
      c.state = .planned → p c = true →
      gone = c :: after.filter (fun d => decide (d.state = .planned)) ∧
      (handBack p s).claims = before ++ after.filter (fun d => decide (d.state ≠ .planned))) ∧
    ((∀ d ∈ s.claims, ¬ (d.state = .planned ∧ p d = true)) → gone = [] ∧ (handBack p s).claims = s.claims) ∧
    (s.claims.Nodup → ∀ c, c ∈ (handBack p s).claims ↔ c ∈ s.claims ∧ c ∉ gone) ∧
    (handBack p s).line = { s.line with
      queue := queued ++ waiting.take (7 - queued.length), waiting := waiting.drop (7 - queued.length) } ∧
    (s.text.queue.length + gone.length ≤ 16 →
      (handBack p s).text = { s.text with queue := gone.map Claim.block ++ s.text.queue } ∧
      (handBack p s).report = s.report ∧
      (handBack p s).timer = { s.timer with hold := if gone = [] then s.timer.hold else false })

/-! ### The Pacing Set -/

/-- R129, R173: an introducer opens a command, discarding an open one with TEXT_ERROR as every control code does; an open
command collects characters; the terminator makes a well-formed one a write, and a malformed one, or none, TEXT_ERROR. -/
def Obligations.PaceCommandIsCollected : Prop :=
  ∀ s : State,
    (closeCommand s = if s.pacing.command = none then s
      else State.flagged .textError { s with pacing := { s.pacing with command := none } }) ∧
    (s.station.mode ≠ .resetting → exec .paceIntroducer s = .next
      (let u := if s.pacing.command = none then s else State.flagged .textError s
      { u with pacing := { s.pacing with command := some [] } })) ∧
    (∀ c cs, s.station.mode ≠ .resetting → isCharacter c = true → s.pacing.command = some cs →
      exec (.character c) s = .next (finish { s with pacing := { s.pacing with command := some (cs ++ [c]) } })) ∧
    (s.station.mode ≠ .resetting → s.pacing.command = none →
      exec .paceTerminator s = .next (State.flagged .textError s)) ∧
    (∀ letter digits p, s.station.mode ≠ .resetting → s.pacing.command = some (letter :: digits) →
      paramOfLetter letter = some p → 1 ≤ digits.length → digits.length ≤ 4 →
      (∀ d ∈ digits, 0x30 ≤ d.toNat ∧ d.toNat ≤ 0x39) →
      exec .paceTerminator s = .next (writeParam p (digits.foldl (fun x d => x * 10 + (d.toNat - 0x30)) 0)
        { s with pacing := { s.pacing with command := none } })) ∧
    (∀ cs, s.station.mode ≠ .resetting → s.pacing.command = some cs →
      (∀ letter digits, cs = letter :: digits → paramOfLetter letter = none ∨ digits = [] ∨ 4 < digits.length ∨
        ∃ d ∈ digits, d.toNat < 0x30 ∨ 0x39 < d.toNat) →
      exec .paceTerminator s = .next (State.flagged .textError
        { s with pacing := { s.pacing with command := none } }))

/-- R130, R132: a write holds the value to its range, flags PARAM_CLAMPED when that changed it, and puts it in the pending
set; an AT_ONCE value becomes active in the same act unless the set is holding. HOLD sets the hold flag; RELEASE, taken
while holding, clears it and makes the pending AT_ONCE values active. -/
def Obligations.WritesAndHolds : Prop :=
  ∀ s : State,
    let atOnce := fun u : State => { u with pacing := { u.pacing with
      active := { u.pacing.active with
        pi := u.pacing.pending.pi.getD u.pacing.active.pi, y := u.pacing.pending.y.getD u.pacing.active.y },
      pending := { u.pacing.pending with pi := none, y := none } } }
    (∀ (p : Param) (x : Nat),
      let v := max p.range.1 (min p.range.2 x)
      let w := { s with pacing := { s.pacing with pending := s.pacing.pending.set p (some v) } }
      let u := if v = x then w else State.flagged .paramClamped w
      ((p ≠ .pi ∧ p ≠ .y) ∨ s.pacing.holding = true → writeParam p x s = u) ∧
      ((p = .pi ∨ p = .y) → s.pacing.holding = false → s.pacing.active.Legal → writeParam p x s = atOnce u)) ∧
    (s.station.mode ≠ .resetting →
      let u := closeCommand s
      exec .hold s = .next { u with pacing := { u.pacing with holding := true } } ∧
      (s.pacing.holding = false → exec .release s = .next u) ∧
      (s.pacing.holding = true → s.pacing.active.Legal →
        exec .release s = .next (atOnce { u with pacing := { u.pacing with holding := false } })))

/-- R131: from values in their fixed ranges the four cross-limits make a legal set, by changing Dmax, Dlin, Lmax and H only; a
legal set stands as it is. -/
def Obligations.CrossLimitsMakeLegal : Prop :=
  ∀ v : Params Nat, (∀ p : Param, p.range.1 ≤ v.get p ∧ v.get p ≤ p.range.2) →
    v.crossLimited.Legal ∧ (v.Legal → v.crossLimited = v) ∧
    v.crossLimited = { v with dmax := max v.dmax v.dmin, dlin := max v.dlin (max v.dmax v.dmin), lmax := max v.lmax v.t,
                              h := min v.h (v.t - 1) }

/-! ### The floor -/

/-- R116, R123: TAKE makes a bid from IDLE in ACTIVE, is ignored with a bid or the floor in hand, and is refused in the other
modes; YIELD takes a LIVE station to YIELDING and is ignored in any other floor state. -/
def Obligations.FloorCodesBidAndYield : Prop :=
  ∀ s : State, s.station.mode ≠ .resetting →
    let u := closeCommand s
    (s.station.mode = .active → s.floor.state = .idle → exec .take s = .next (finish (requestPacket (.take false)
      { u with floor := { s.floor with
          state := .bidding, bidCount := 0, bidRunning := false, takeEchoed := false, reportDue := true } }))) ∧
    (s.station.mode = .active → s.floor.state ≠ .idle → exec .take s = .next (finish u)) ∧
    (s.station.mode ≠ .active → exec .take s = .next (finish (pushReport .refused u))) ∧
    (s.floor.state = .live → exec .yield s = .next (finish { u with floor := { s.floor with
      state := .yielding, yieldCount := 0, yieldOwed := false, reportDue := true } })) ∧
    (s.floor.state ≠ .live → exec .yield s = .next (finish u))

/-- R124, R161, R162: what PARK and UNPARK do in each mode; the deferred park; and the join wait, which ends PARKED when a
park is remembered and ACTIVE otherwise. -/
def Obligations.ParkFollowsMode : Prop :=
  (∀ s : State, s.station.mode ≠ .resetting →
    let u := closeCommand s
    (s.station.mode = .joining →
      exec .park s = .next (finish { u with station := { s.station with parkRemembered := true } }) ∧
      exec .unpark s = .next (finish { u with station := { s.station with parkRemembered := false } })) ∧
    (s.station.mode = .active →
      exec .unpark s = .next (finish u) ∧
      (s.floor.state = .idle → exec .park s = .next (finish { u with
        floor := { s.floor with parkOwed := false }, station := { s.station with mode := .parked } })) ∧
      (s.floor.state = .live → exec .park s = .next (finish { u with floor := { s.floor with
        state := .yielding, yieldCount := 0, yieldOwed := false, parkOwed := true, reportDue := true } })) ∧
      (s.floor.state = .bidding ∨ s.floor.state = .yielding →
        exec .park s = .next (finish { u with floor := { s.floor with parkOwed := true } }))) ∧
    (s.station.mode = .parked →
      exec .park s = .next (finish u) ∧
      exec .unpark s = .next (finish { u with station := { s.station with mode := .active } })) ∧
    (s.station.mode = .mute → exec .park s = .next (finish u) ∧ exec .unpark s = .next (finish u))) ∧
  (∀ s : State, s.floor.parkOwed = true → s.floor.state = .idle → exec .deferredPark s = .next { s with
    floor := { s.floor with parkOwed := false }, station := { s.station with mode := .parked } }) ∧
  (∀ s : State, s.station.mode = .joining → 2 * s.fps ≤ s.station.joinCount →
    exec .joinWaitExpiry s = .next (finish { s with station := { s.station with
      mode := if s.station.parkRemembered = true then .parked else .active, parkRemembered := false } }))

/-- R29, R118, R121: the yield deadline drops every queued block and then the open block, empties both, and makes the yield
owed; the end of the bid wait asks for a forced TAKE and stops the bid count. -/
def Obligations.FloorWaitsExpire : Prop :=
  (∀ s : State, s.floor.state = .yielding → s.floor.yieldOwed = false → s.pacing.active.y ≤ s.floor.yieldCount →
    exec .yieldDeadline s = .next (finish (pushReports
      ((s.text.queue.map fun b => Report.dropped .yield (some b.seq)) ++
        (if s.text.composeEmpty = true then [] else [Report.dropped .yield none]))
      { s with
        text := { word := [], wordArrival := none, openText := Text.empty, arrival := none, speakerMark := false,
                  idleCount := 0, nextSeq := s.text.nextSeq, queue := [] },
        timer := { s.timer with hold := false }, floor := { s.floor with yieldOwed := true } }))) ∧
  (∀ s : State, s.floor.state = .bidding → s.floor.bidRunning = true → s.pacing.active.y + s.fps ≤ s.floor.bidCount →
    exec .bidWaitExpiry s = .next (finish (requestPacket (.take true)
      { s with floor := { s.floor with bidRunning := false } })))

/-- R114, R157: a present peer not heard for 3F boundaries becomes SILENT; if it held the floor its successor, if any, holds it,
and if it was the successor there is none; a silent peer that was neither changes nothing else. -/
def Obligations.SilentPeerLosesFloor : Prop :=
  ∀ (p : Nat) (s : State), 1 ≤ p → p ≤ 16 → p ≠ s.own → (peerEntry p s).presence = .present →
    3 * s.fps ≤ (peerEntry p s).unheard →
    let u := { s with line := { s.line with
      peers := s.line.peers.set (p - 1) { peerEntry p s with presence := .silent } } }
    (s.floor.holder = some p → s.floor.successor = some s.own → exec (.peerSilent p) s = .next (finish (holdFloor
      { u with floor := { s.floor with successor := none } }))) ∧
    (s.floor.holder = some p → s.floor.successor ≠ some s.own → s.floor.successor ≠ some p →
      exec (.peerSilent p) s = .next (finish { u with floor := { s.floor with
        holder := s.floor.successor, successor := none, reportDue := true } })) ∧
    (s.floor.holder ≠ some p → s.floor.successor = some p → exec (.peerSilent p) s = .next (finish
      { u with floor := { s.floor with successor := none } })) ∧
    (s.floor.holder ≠ some p → s.floor.successor ≠ some p → exec (.peerSilent p) s = .next (finish u))

/-- R110, R111: a peer's plain TAKE makes it holder when there is neither holder nor successor, successor when there is a holder
alone, and changes nothing when it is either already or when there is a successor; a LIVE station enters YIELDING. -/
def Obligations.PlainTakeClaimsView : Prop :=
  ∀ (p : Nat) (s : State), Delivered p (.take false) s →
    let f := s.floor
    let viewed : Floor :=
      if f.holder = some p ∨ f.successor = some p then f
      else if f.holder = none ∧ f.successor = none then { f with holder := some p, reportDue := true }
      else if f.successor = none then { f with successor := some p }
      else f
    exec (.plainTake p) s = .next (finish { s.hearing p with floor :=
      if f.state = .live then
        { viewed with state := .yielding, yieldCount := 0, yieldOwed := false, reportDue := true } else viewed })

/-- R83, R113: a peer's forced TAKE makes it holder with no successor. A bidder whose TAKE has been echoed loses its bid; a
station on the floor, which is ACTIVE (R109, R162), becomes IDLE with no yield owed, its PLANNED claims leave, its CLAIMED
ones are withdrawn at their shows, each by a CUT in the Transmit Queue, and, where no CUT displaces a packet, its other
claims stand; any other station only sees its view change. -/
def Obligations.ForcedTakeTakesFloor : Prop :=
  ∀ (p : Nat) (s : State), Delivered p (.take true) s →
    let seen := { s.floor with
      holder := some p, successor := none, reportDue := s.floor.reportDue || decide (s.floor.holder ≠ some p) }
    (s.floor.state = .idle ∨ (s.floor.state = .bidding ∧ s.floor.takeEchoed = false) →
      exec (.forcedTake p) s = .next (finish { s.hearing p with floor := seen })) ∧
    (s.floor.state = .bidding → s.floor.takeEchoed = true →
      exec (.forcedTake p) s = .next (finish (pushReport .takeLost (removeUnstarted PacketKind.isTake
        { s.hearing p with floor :=
          { seen with state := .idle, bidRunning := false, takeEchoed := false, reportDue := true } })))) ∧
    (s.floor.state = .live ∨ s.floor.state = .yielding → s.station.mode = .active →
      s.line.queue.length + s.line.waiting.length + s.claims.length ≤ 8 → (s.claims.map Claim.seq).Nodup →
      ∃ t, exec (.forcedTake p) s = .next t ∧ t.floor.state = .idle ∧ t.floor.holder = some p ∧
        t.floor.successor = none ∧ t.floor.yieldOwed = false ∧ t.text = s.text ∧
        (∀ c ∈ t.claims, c.state ≠ .planned) ∧
        (∀ c ∈ s.claims, (c.state = .onAir ∨ c.state = .sending) → c ∈ t.claims) ∧
        (∀ c ∈ s.claims, c.state = .claimed → c.withdrawal = none →
          { c with withdrawal := some c.showAt, revision := none } ∈ t.claims ∧
          ∃ q ∈ t.line.queue, q.kind = .cut c.seq c.showAt))

/-- R112: a YIELD gives the floor to the station it names, and to none when it names none or a SILENT one; there is no
successor. Named itself, the station takes the floor; otherwise a bidder whose TAKE has been echoed loses its bid, and a
station on the floor leaves it. -/
def Obligations.YieldPacketPassesFloor : Prop :=
  ∀ (p : Nat) (q : Option Nat) (s : State), Delivered p (.yield q) s →
    let heard := s.hearing p
    let given := if ∃ k ∈ q, (peerEntry k heard).presence = .silent then none else q
    let seen := { s.floor with
      holder := given, successor := none, reportDue := s.floor.reportDue || decide (s.floor.holder ≠ given) }
    (given = some s.own → exec (.yieldPacket p q) s = .next (finish (holdFloor
      { heard with floor := { s.floor with successor := none } }))) ∧
    (given ≠ some s.own → s.floor.state = .idle ∨ (s.floor.state = .bidding ∧ s.floor.takeEchoed = false) →
      exec (.yieldPacket p q) s = .next (finish { heard with floor := seen })) ∧
    (given ≠ some s.own → s.floor.state = .bidding → s.floor.takeEchoed = true →
      exec (.yieldPacket p q) s = .next (finish (pushReport .takeLost (removeUnstarted PacketKind.isTake
        { heard with floor :=
          { seen with state := .idle, bidRunning := false, takeEchoed := false, reportDue := true } })))) ∧
    (given ≠ some s.own → s.floor.state = .live ∨ s.floor.state = .yielding →
      exec (.yieldPacket p q) s = .next (finish (leaveFloor { heard with floor := seen })))

/-- R66, R75, R109, R118, R122, R124: a bidder, or an IDLE station in ACTIVE, made holder becomes LIVE at NORMAL pace, its bid
over, and YIELDING at once when a park is owed; one on the floor only takes the view; any other cannot hold the floor. A
station that leaves the floor is IDLE with no yield owed; its PLANNED claims leave with DROPPED YIELD reports, its
revisions go with LATE reports, the DROPPED ones first and each kind in claim order (DEDUCED, log entry 20), their CUEs
and REVISEs and its YIELD that have not started are removed, and its other claims stand. -/
def Obligations.FloorIsGainedAndLeft : Prop :=
  ∀ s : State,
    ((s.floor.state = .bidding ∨ (s.floor.state = .idle ∧ s.station.mode = .active)) →
      let due := { s.floor with
        state := if s.floor.parkOwed = true then FloorState.yielding else .live, holder := some s.own,
        yieldCount := if s.floor.parkOwed = true then 0 else s.floor.yieldCount,
        yieldOwed := if s.floor.parkOwed = true then false else s.floor.yieldOwed,
        bidRunning := false, takeEchoed := false, reportDue := true }
      holdFloor s = removeUnstarted PacketKind.isTake { s with floor := due, timer := { s.timer with pace := .normal } }) ∧
    ((s.floor.state = .live ∨ s.floor.state = .yielding) → holdFloor s = { s with floor := { s.floor with
      holder := some s.own, reportDue := s.floor.reportDue || decide (s.floor.holder ≠ some s.own) } }) ∧
    (s.floor.state = .idle → s.station.mode ≠ .active → holdFloor s = { s with floor := { s.floor with
      holder := none, reportDue := s.floor.reportDue || decide (s.floor.holder ≠ none) } }) ∧
    ((leaveFloor s).floor = { s.floor with
      state := .idle, yieldOwed := false, reportDue := s.floor.reportDue || decide (s.floor.state ≠ .idle) } ∧
     (leaveFloor s).claims =
      (s.claims.filter fun c => decide (c.state ≠ .planned)).map (fun c => { c with revision := none }) ∧
     (leaveFloor s).report = (pushReports
      (((s.claims.filter fun c => decide (c.state = .planned)).map fun c => .dropped .yield (some c.seq)) ++
        ((s.claims.filter fun c => decide (c.state ≠ .planned ∧ c.revision ≠ none)).map fun c => .late (some c.seq))) s).report ∧
     (∀ q ∈ (leaveFloor s).line.queue ++ (leaveFloor s).line.waiting, q.sent = none → q.kind ≠ .yield ∧
      ∀ c ∈ s.claims, (c.state = .planned → q.kind ≠ .cue c.seq) ∧
        (c.state ≠ .planned → c.revision ≠ none → q.kind ≠ .revise c.seq)))

/-! ### Reports and reset -/

/-- R165, R167, R168: STATUS queues a report filled from the state that stands and clears the sticky flags it carries; when the
queue is full its oldest line not begun leaves, which is the second (DEDUCED, log entry 6), and REPORT_LOST is carried. The head
line leaves when it has been sent, and its bytes stand in the model's own record of the port (log entry 33). -/
def Obligations.StatusIsReported : Prop :=
  (∀ s : State, s.station.mode ≠ .resetting →
    let u := closeCommand s
    let full := 32 ≤ s.report.queue.length
    exec .status s = .next { u with report := { s.report with
      queue := (if full then s.report.queue.eraseIdx 1 else s.report.queue) ++ [.status
        { mode := s.station.mode, floor := s.floor.state, holder := s.floor.holder, pace := s.timer.pace,
          time := s.ref.status, locked := decide (s.ref.goodPulses = 8), n := s.ref.n, blocks := s.text.queue.length,
          packets := s.line.queue.length, claims := s.claims.length,
          notOnAir := (s.claims.filter fun c => decide (c.state ≠ .onAir)).length,
          entries := (List.range s.displayRows).map fun i =>
            (s.map.filter fun c => decide (c.low ≤ i + 1 ∧ i + 1 < c.low + c.count)).length,
          item := s.item.number,
          flags := if full then u.report.flags.raise .reportLost else u.report.flags }],
      flags := Flags.clear } }) ∧
  (∀ s : State,
    (∀ r rest, s.report.queue = r :: rest → exec .reportLineSent s = .next { s with report :=
      { s.report with queue := rest, portOut := r.line } }) ∧
    (s.report.queue = [] → exec .reportLineSent s = .next s))

/-- R47, R89, R127, R134, R163: RESET empties the text units, the loading block and the pending set and keeps the stored
blocks, the loop flag, the active set and the sequence counter; the floor is IDLE; the flags are clear; a CUT is queued
for every SENDING, CLAIMED or ON_AIR claim not yet withdrawing, and the station waits in RESETTING while one is. In MUTE
it has no effect. RESETTING ends with nothing left to wait for or when the reset count reaches 2F: the station is JOINING
with its join count at 0; the claims, the map, the waiting requests and the packets not started are gone, and there is
neither holder nor successor. -/
def Obligations.ResetEmptiesStation : Prop :=
  (∀ s : State, s.station.mode ≠ .resetting → s.station.mode ≠ .mute → s.claims.length ≤ 4 →
    (s.line.queue.filter QPacket.started).length ≤ 1 →
    ∃ t, exec .reset s = .next t ∧ (t.station.mode = .resetting ∨ t.station.mode = .joining) ∧
      t.text = { word := [], wordArrival := none, openText := Text.empty, arrival := none, speakerMark := false,
                 idleCount := 0, nextSeq := s.text.nextSeq, queue := [] } ∧
      t.script = { s.script with
        load := .notLoading, loadText := Text.empty, loadWord := [], loadMark := false, pointer := 1,
        storedChars := s.script.storedChars - s.script.loadText.count } ∧
      t.pacing = { active := s.pacing.active, pending := Params.nothing, holding := false, command := none } ∧
      t.timer = { pace := .normal, hold := false } ∧ t.ref = s.ref ∧ t.item.number = s.item.number ∧
      t.floor.state = .idle ∧ t.floor.yieldOwed = false ∧ t.floor.parkOwed = false ∧
      t.floor.holder ≠ some s.own ∧ t.report.flags = Flags.clear ∧
      (∀ c ∈ t.claims, c.state ≠ .planned ∧ c.state ≠ .sending) ∧
      (∀ c ∈ s.claims, c.withdrawal = none → c.state ≠ .planned →
        t.station.mode = .resetting ∧ ∃ q ∈ t.line.queue,
          q.kind = .cut c.seq (if c.state = .onAir then s.plus s.n 4 else c.showAt))) ∧
  (∀ s : State, s.station.mode = .mute → exec .reset s = .next (closeCommand s)) ∧
  (∀ s : State, s.station.mode = .resetting →
    let ended := { s with
      claims := [], map := [],
      floor := { s.floor with
        holder := none, successor := none, reportDue := s.floor.reportDue || decide (s.floor.holder ≠ none) },
      line := { s.line with
        waiting := [], queue := (s.line.queue.filter QPacket.started).map fun q => { q with mark := .inFlight } },
      station := { s.station with mode := .joining, joinCount := 0 } }
    (2 * s.fps ≤ s.station.resetCount → exec .resetCountExpiry s = .next (finish ended)) ∧
    ((∀ c ∈ s.claims, c.withdrawal = none) → (∀ q ∈ s.line.queue, q.mark ≠ .entryCut ∧ q.sent = none) →
      exec .resetDrained s = .next (floorReport ended)))

/-! ### Item boundaries -/

/-- R28, R103, R131, R137, R138, R139: a peer's ITEM within 2 frames of the last boundary is its duplicate and changes nothing
but what hearing it does; any other is taken: the open block closes with cause ITEM under the old number, the number and
the boundary are recorded, the pace is NORMAL (in MUTE, where R66 and R69 differ, it keeps its value: the model's choice,
log entry 38), the station's own request that has not started is dropped from the Transmit Queue or the waiting requests,
and waiting requests take its place, pending AT_ITEM values become active unless holding, with the cross-limits, and a cue
on air across the boundary is bounded by it. -/
def Obligations.ItemBoundaryIsTaken : Prop :=
  ∀ (p : Nat) (b : Frame) (k : Byte) (s : State), Delivered p (.item b k) s →
    (∀ a, s.item.lastBoundary = some a → -2 ≤ s.dist a b → s.dist a b ≤ 2 →
      exec (.itemPacket p b k) s = .next (finish (s.hearing p))) ∧
    ((∀ a ∈ s.item.lastBoundary, s.dist a b < -2 ∨ 2 < s.dist a b) →
      ∃ v, exec (.itemPacket p b k) s = .next (finish v) ∧
        v.item = { s.item with
          number := k, lastBoundary := some b, own := if s.item.own = .sending then .sending else .none } ∧
        (v.timer.pace = if s.station.mode = .mute then s.timer.pace else .normal) ∧
        (s.text.composeEmpty = true → v.text = s.text) ∧
        (s.text.composeEmpty = false → v.text = (closeBlock .item (completeWord s)).text ∧ v.text.composeEmpty = true ∧
          ∃ rest x, v.text.queue = rest ++ [x] ∧ x.cause = .item ∧ x.item = s.item.number ∧ x.source = .live ∧
            x.text = (completeWord s).text.openText) ∧
        (let heard := (s.hearing p).line
        let kept := heard.queue.filter fun q => decide (q.sent ≠ none ∨ q.kind ≠ .item)
        let others := heard.waiting.filter fun q => decide (q.kind ≠ .item)
        ((s.item.own = .none ∨ s.item.own = .sending) → v.line = heard) ∧
        ((s.item.own = .waiting ∨ s.item.own = .queued) → v.line = { heard with
            queue := kept ++ others.take (7 - kept.length), waiting := others.drop (7 - kept.length) } ∧
          ∀ q ∈ v.line.queue ++ v.line.waiting, q.kind = .item → q.sent ≠ none)) ∧
        v.script = s.script ∧ v.claims = s.claims ∧ v.ref = s.ref ∧
        v.floor = s.floor ∧ v.station = s.station ∧
        (s.pacing.holding = true → v.pacing = s.pacing) ∧
        (s.pacing.holding = false → s.pacing.active.Legal → v.pacing = { s.pacing with
          active := Params.crossLimited { s.pacing.active with
            t := s.pacing.pending.t.getD s.pacing.active.t, h := s.pacing.pending.h.getD s.pacing.active.h,
            k := s.pacing.pending.k.getD s.pacing.active.k, lmax := s.pacing.pending.lmax.getD s.pacing.active.lmax,
            placement := s.pacing.pending.placement.getD s.pacing.active.placement },
          pending := { s.pacing.pending with t := none, h := none, k := none, lmax := none, placement := none } }) ∧
        v.map = s.map.map fun c =>
          if 0 < s.dist c.showAt b ∧ 0 < s.dist b c.offBound then
            { c with offBound := if s.dist ((s.n + 1) % s.day) b < 0 then
                earlierOf s.day ((s.n + 1) % s.day) c.offBound else b } else c)

/-! ### The cue line -/

/-- R135, R154, R155, R156: a request enters the queue while it holds fewer than 7 packets and waits otherwise; waiting
requests enter in order; a CUT always enters; a closing item contact in ACTIVE or PARKED asks for an ITEM unless one is in
hand; a STATE due restarts the phase count and asks for a STATE in ACTIVE or PARKED, where none is in hand; one in
transmission serves, and one queued or waiting is replaced by a fresh one in its place (one that stopped counts as not
started: DEDUCED, log entry 44; a waiting one keeps its turn: the model's choice, log entry 57). -/
def Obligations.RequestsEnterOrWait : Prop :=
  ∀ s : State,
    let free := 7 - s.line.queue.length
    let fresh := fun k : PacketKind => ({ kind := k, attempts := 0, fallback := false, sent := none, mark := .none } : QPacket)
    let asked := fun k : PacketKind => if s.line.queue.length < 7 then
      { s.line with queue := s.line.queue ++ [fresh k] } else { s.line with waiting := s.line.waiting ++ [fresh k] }
    (∀ k, requestPacket k s = { s with line := asked k }) ∧
    (exec .waitingRequestEntry s = .next { s with
      line := { s.line with queue := s.line.queue ++ s.line.waiting.take free, waiting := s.line.waiting.drop free },
      item := { s.item with own := if ∃ q ∈ s.line.waiting.take free, q.kind = .item then .queued else s.item.own } }) ∧
    (∀ seq off m, s.line.queue.length ≤ 8 → (s.line.queue.filter QPacket.started).length ≤ 1 →
      ∃ rest, (queueCut seq off m s).line.queue = rest ++ [{ fresh (.cut seq off) with mark := m }] ∧ rest.length ≤ 7) ∧
    ((s.station.mode = .active ∨ s.station.mode = .parked) → s.item.own = .none → exec .itemContactClose s = .next
      { s with line := asked .item, item := { s.item with own := if s.line.queue.length < 7 then .queued else .waiting } }) ∧
    ((s.station.mode ≠ .active ∧ s.station.mode ≠ .parked) ∨ s.item.own ≠ .none →
      exec .itemContactClose s = .next s) ∧
    (s.n % s.fps = (s.own - 1) % s.fps ∨ s.fps ≤ s.line.phase →
      ((s.station.mode = .active ∨ s.station.mode = .parked) →
        (∀ q ∈ s.line.queue ++ s.line.waiting, q.kind ≠ .state) →
        exec .stateDue s = .next { s with line := { asked .state with phase := 0 } }) ∧
      ((∃ q ∈ s.line.queue, q.kind = .state ∧ q.sent ≠ none) →
        exec .stateDue s = .next { s with line := { s.line with phase := 0 } }) ∧
      ((s.station.mode = .active ∨ s.station.mode = .parked) →
        (∀ q ∈ s.line.queue, q.kind = .state → q.sent = none) →
        (∃ q ∈ s.line.queue ++ s.line.waiting, q.kind = .state) →
        let anew := fun q : QPacket => if q.kind = .state then fresh .state else q
        exec .stateDue s = .next { s with line := { s.line with
          phase := 0, queue := s.line.queue.map anew, waiting := s.line.waiting.map anew } }) ∧
      (s.station.mode ≠ .active → s.station.mode ≠ .parked →
        exec .stateDue s = .next { s with line := { s.line with phase := 0 } }))

/-- R148: a BUSY line that has been quiet becomes IDLE at an idle point, but not while the station transmits; a start bit on
an IDLE line makes it BUSY and begins a reception. Nothing else changes; a reception still open ends without LINE_FAULT (the
model's choice, log entry 43). -/
def Obligations.LineFollowsPair : Prop :=
  ∀ (t : Moment) (s : State),
    (s.line.idle = false → (∀ q ∈ s.line.queue, q.sent = none) →
      exec (.lineIdle t) s = .next { s with line := { s.line with idle := true, idlePoint := t, receiving := none } }) ∧
    (s.line.idle = true ∨ (∃ q ∈ s.line.queue, q.sent ≠ none) → exec (.lineIdle t) s = .next s) ∧
    (s.line.idle = true → exec .lineBusy s = .next { s with line := { s.line with idle := false, receiving := some 0 } }) ∧
    (s.line.idle = false → exec .lineBusy s = .next s)

/-- R76, R149, R150, R151: the head of the queue is a packet of the lowest class queued. It starts once its slot is reached,
on an IDLE line, outside the guard window, in ACTIVE, PARKED or RESETTING, and with nothing of the station's in
transmission, and is filled at that moment; a CUE or REVISE also needs the floor and a show 4 frames off or more. Its
claim or own ITEM becomes SENDING. A CUE without them is dropped off the floor, and handed back otherwise (the floor is
looked at first: log entry 10), and a REVISE ends its revision with LATE; that the next head is then looked at before any
attempt is log entry 35. -/
def Obligations.HeadStartsInItsSlot : Prop :=
  ∀ s : State,
    (∀ q, queueHead s.line.queue = some q → q ∈ s.line.queue ∧ ∀ r ∈ s.line.queue, q.kind.cls ≤ r.kind.cls) ∧
    (s.line.queue ≠ [] → queueHead s.line.queue ≠ none) ∧
    (∀ t, (s.station.mode = .joining ∨ s.station.mode = .mute ∨ s.line.idle = false ∨ s.ref.guardOpen = true ∨
      ∃ q ∈ s.line.queue, q.sent ≠ none) → exec (.transmissionStart t) s = .next s) ∧
    (∀ (t : Moment) (q : QPacket),
      (s.station.mode = .active ∨ s.station.mode = .parked ∨ s.station.mode = .resetting) → s.line.idle = true →
      s.ref.guardOpen = false → (∀ r ∈ s.line.queue, r.sent = none) → queueHead s.line.queue = some q →
      s.line.lastSender ≤ 16 →
      let index := if q.fallback = true then s.own - 1 else (s.own + 15 + 16 - s.line.lastSender) % 16
      let slotAt := s.line.idlePoint + (q.kind.cls * 16 + index) * 10 * 3
      let started := fun (packet : Packet) (text : Text) => ({ s with
        line := { s.line with
          idle := false, receiving := some 0,
          queue := changeFirst q (fun r => { r with sent := some { packet := packet, text := text } }) s.line.queue },
        claims := (s.claims.map fun c =>
          if q.kind = .cue c.seq ∧ c.state = .planned then { c with state := .sending } else c),
        item := { s.item with own := if q.kind = .item then .sending else s.item.own } } : State)
      (t < slotAt → exec (.transmissionStart t) s = .next (finish s)) ∧
      (slotAt ≤ t →
        (∀ seq off, q.kind = .cut seq off →
          exec (.transmissionStart t) s = .next (finish (started (.cut seq off) Text.empty))) ∧
        (∀ forced, q.kind = .take forced →
          exec (.transmissionStart t) s = .next (finish (started (.take forced) Text.empty))) ∧
        (q.kind = .yield →
          exec (.transmissionStart t) s = .next (finish (started (.yield s.floor.successor) Text.empty))) ∧
        (q.kind = .item → exec (.transmissionStart t) s = .next (finish (started
          (.item (s.plus s.n 4) (s.item.number + 1)) Text.empty))) ∧
        (q.kind = .state → exec (.transmissionStart t) s = .next (finish (started (.state (stateBody s)) Text.empty))) ∧
        (∀ c, q.kind = .cue c.seq → claimToSend c.seq s = some c →
          (s.floor.state = .live ∨ s.floor.state = .yielding) → 4 ≤ s.dist s.n c.showAt →
          exec (.transmissionStart t) s = .next (finish (started (.cue (bodyOf c c.text)) c.text))) ∧
        (∀ c x, q.kind = .revise c.seq → claimToRevise c.seq s = some c → c.revision = some x →
          (s.floor.state = .live ∨ s.floor.state = .yielding) → 4 ≤ s.dist s.n c.showAt →
          exec (.transmissionStart t) s = .next (finish (started (.revise (bodyOf c x)) x))) ∧
        (∀ c, q.kind = .cue c.seq → claimToSend c.seq s = some c → s.line.queue = [q] → s.line.waiting = [] →
          ((s.floor.state = .live ∨ s.floor.state = .yielding) → s.dist s.n c.showAt < 4 →
            exec (.transmissionStart t) s = .next (finish (handBack (fun d => decide (d.seq = c.seq)) s))) ∧
          ((s.floor.state = .idle ∨ s.floor.state = .bidding) →
            exec (.transmissionStart t) s = .next (finish (dropPlanned (fun d => decide (d.seq = c.seq)) s)))) ∧
        (∀ c, q.kind = .revise c.seq → claimToRevise c.seq s = some c → s.line.queue = [q] → s.line.waiting = [] →
          s.floor.state = .idle ∨ s.floor.state = .bidding ∨ s.dist s.n c.showAt < 4 →
          exec (.transmissionStart t) s = .next (finish (pushReport (.late (some c.seq)) { s with
            line := { s.line with queue := [] },
            claims := (s.claims.map fun d => if d.seq = c.seq then { d with revision := none } else d) })))))

/-- R80, R81, R87, R101, R111, R122, R136, R146, R151: the packet in transmission, read back whole, leaves the queue, its
place is taken by a waiting request, and the station is the last sender heard. A CUE makes its claim CLAIMED, with its
report, and enters the map, a conflict being settled before the claim may go on air (DEDUCED, log entry 40); a REVISE
gives its claim the text it carried, with REVISED, and another follows for a revision shortened meanwhile (log entry 19);
the CUT of an emptied claim reports REVISED (also without an echoed CUE: log entry 18); a TAKE makes the bidder holder,
leaves it pending with its bid count at 0, or loses the bid; a YIELD gives the floor away; an ITEM is taken unless it is a
duplicate (in MUTE it keeps the pace state: the model's choice, log entry 38); a STATE leaves of the station's own cues
only those it lists. -/
def Obligations.EchoIsTaken : Prop :=
  ∀ (s : State) (before after : List QPacket) (q : QPacket) (x : Sent),
    s.line.queue = before ++ q :: after → (∀ r ∈ before, r.sent = none) → q.sent = some x →
    packetValid s.own x.packet = true → packetFits s x.packet = true →
    let free := 7 - (before ++ after).length
    let u := { s with
      line := { s.line with
        receiving := none, lastSender := s.own, queue := before ++ after ++ s.line.waiting.take free,
        waiting := s.line.waiting.drop free,
        peers := s.line.peers.set (s.own - 1)
          { s.line.peers.getD (s.own - 1) Peer.unheardOf with presence := .present, unheard := 0 } },
      item := { s.item with own :=
        if q.kind = .item then .none
        else if ∃ r ∈ s.line.waiting.take free, r.kind = .item then .queued else s.item.own } }
    (∀ b, x.packet = .cue b → (∀ c, sendingClaim b.seq s = some c →
      exec .packetEcho s = .next (finish (expireCues (airAtEcho b.seq (mapCue s.own b
        (pushReport (.claimed c.seq c.low c.count c.showAt c.minOff c.lingerOff) { u with
          claims := (s.claims.map fun d =>
            if d.seq = b.seq ∧ d.state = .sending then { d with state := .claimed } else d) })))))) ∧
      (sendingClaim b.seq s = none → exec .packetEcho s = .next (finish (expireCues (mapCue s.own b u))))) ∧
    (∀ b, x.packet = .revise b → (∃ c ∈ s.claims, c.seq = b.seq ∧ c.state ≠ .planned) →
      (∀ c ∈ s.claims, c.seq = b.seq → c.revision = none ∨ c.revision = some x.text) →
      exec .packetEcho s = .next (finish (expireCues (mapRevise s.own b (pushReport (.revised b.seq) { u with
        claims := (s.claims.map fun c =>
          if c.seq = b.seq then { c with text := x.text, revision := none } else c) }))))) ∧
    (∀ b r, x.packet = .revise b → r ≠ x.text → (∃ c ∈ s.claims, c.seq = b.seq ∧ c.state ≠ .planned) →
      (∀ c ∈ s.claims, c.seq = b.seq → c.revision = some r) →
      (∀ p ∈ u.line.queue ++ u.line.waiting, p.kind ≠ .revise b.seq) →
      exec .packetEcho s = .next (finish (expireCues (mapRevise s.own b (requestPacket (.revise b.seq)
        (pushReport (.revised b.seq) { u with
          claims := (s.claims.map fun c => if c.seq = b.seq then { c with text := x.text } else c) })))))) ∧
    (∀ seq off, x.packet = .cut seq off →
      ((∀ c ∈ s.claims, c.seq = seq → c.emptied = false) → exec .packetEcho s = .next (finish (mapCut s.own seq off u))) ∧
      ((∃ c ∈ s.claims, c.seq = seq ∧ c.emptied = true) →
        exec .packetEcho s = .next (finish (mapCut s.own seq off (pushReport (.revised seq) u))))) ∧
    (x.packet = .take true → exec .packetEcho s = .next (finish (holdFloor
      { u with floor := { s.floor with successor := none } }))) ∧
    (x.packet = .take false → s.floor.state = .bidding → s.floor.holder = none → s.floor.successor = none →
      exec .packetEcho s = .next (finish (holdFloor u))) ∧
    (∀ p, x.packet = .take false → s.floor.state = .bidding → s.floor.holder = some p → p ≠ s.own →
      s.floor.successor = none → exec .packetEcho s = .next (finish { u with floor := { s.floor with
        successor := some s.own, bidCount := 0, bidRunning := true, takeEchoed := true } })) ∧
    (∀ p, x.packet = .take false → s.floor.state = .bidding → s.floor.holder ≠ some s.own → s.floor.successor = some p →
      p ≠ s.own → exec .packetEcho s = .next (finish (pushReport .takeLost (removeUnstarted PacketKind.isTake
        { u with floor := { s.floor with
            state := .idle, bidRunning := false, takeEchoed := false, reportDue := true } })))) ∧
    (∀ p, x.packet = .yield p → p ≠ some s.own →
      let given := if ∃ k ∈ p, (peerEntry k u).presence = .silent then none else p
      let seen := { s.floor with
        holder := given, successor := none, reportDue := s.floor.reportDue || decide (s.floor.holder ≠ given) }
      ((s.floor.state = .live ∨ s.floor.state = .yielding) →
        exec .packetEcho s = .next (finish (leaveFloor { u with floor := seen }))) ∧
      (s.floor.state = .idle → exec .packetEcho s = .next (finish { u with floor := { seen with yieldOwed := false } }))) ∧
    (∀ b k, x.packet = .item b k →
      (∀ a, s.item.lastBoundary = some a → -2 ≤ s.dist a b → s.dist a b ≤ 2 →
        exec .packetEcho s = .next (finish u)) ∧
      ((∀ a ∈ s.item.lastBoundary, s.dist a b < -2 ∨ 2 < s.dist a b) →
        ∃ v, exec .packetEcho s = .next (finish v) ∧ v.item = { u.item with number := k, lastBoundary := some b } ∧
          (v.timer.pace = if s.station.mode = .mute then s.timer.pace else .normal) ∧
          (v.text = if s.text.composeEmpty = true then s.text else (closeBlock .item (completeWord s)).text) ∧
          v.claims = s.claims ∧ v.line = u.line ∧
          v.map = s.map.map fun c =>
            if 0 < s.dist c.showAt b ∧ 0 < s.dist b c.offBound then
              { c with offBound := if s.dist ((s.n + 1) % s.day) b < 0 then
                earlierOf s.day ((s.n + 1) % s.day) c.offBound else b } else c)) ∧
    (∀ b, x.packet = .state b → ∃ v, exec .packetEcho s = .next (finish v) ∧ v.ref = s.ref ∧
      v.item.number = s.item.number ∧
      ((before ++ after).length + s.line.waiting.length + b.claims.length ≤ 8 → v.floor = s.floor ∧ v.text = s.text) ∧
      (∀ c ∈ v.map, c.owner = s.own → ∃ k ∈ b.claims, c.seq = k.seq ∧ c.low = k.low ∧ c.count = k.count ∧
        c.showAt = k.showAt ∧ c.minOff = k.minOff))

/-- R77, R81, R87, R118, R136, R152, R153: a readback mismatch stops the packet in transmission: its attempt count rises and
its fallback mark is set, a CUE's claim returns to PLANNED, the rest of it as it was (the model's choice, log entries 18
and 39), and an own ITEM to QUEUED; at the sixteenth stop it is given up with LINE_FAULT, and its owner acts: a CUE's
claim is handed back; a revision gets another REVISE 5 frames or more before its show on the floor (a second one already
queued is not looked for: the model's choice, log entry 52), and ends LATE otherwise; a CUT's claim stands again, LATE
when it was emptied; a bid ends with TAKE LOST (none stands outside BIDDING: the model's choice, log entry 50); the own
ITEM is dropped; a YIELD still owed is queued anew at once (R120). Before that, one that the queue was emptied around is
removed (R159; what its owner does is log entry 29). With nothing in transmission there is none (log entry 36). -/
def Obligations.MismatchStopsPacket : Prop :=
  ∀ (s : State) (before after : List QPacket) (q : QPacket),
    s.line.queue = before ++ q :: after → (∀ r ∈ before, r.sent = none) →
    let told : State := { s with
      claims := (s.claims.map fun c =>
        if q.kind = .cue c.seq ∧ c.state = .sending then { c with state := .planned } else c),
      item := { s.item with own := if q.kind = .item then .queued else s.item.own } }
    (q.sent ≠ none → q.mark ≠ .inFlight → q.attempts < 15 → exec .readbackMismatch s = .next (finish { told with
      line := { s.line with
        queue := before ++ { q with attempts := q.attempts + 1, fallback := true, sent := none } :: after } })) ∧
    (q.sent ≠ none → 15 ≤ q.attempts →
      let given := enterWaiting (State.flagged .lineFault { told with line := { s.line with queue := before ++ after } })
      exec .readbackMismatch s = .next (finish (ownerGivesUp q.kind given)) ∧
      (∀ seq, q.kind = .cue seq → ownerGivesUp q.kind given = handBack (fun c => decide (c.seq = seq)) given) ∧
      (∀ seq, q.kind = .revise seq →
        ((∀ c ∈ given.claims, c.seq = seq → c.revision = none) → ownerGivesUp q.kind given = given) ∧
        (∀ c, claimToRevise seq given = some c →
          let kept := (given.floor.state = .live ∨ given.floor.state = .yielding) ∧ 5 ≤ s.dist s.n c.showAt
          (kept → ownerGivesUp q.kind given = requestPacket (.revise seq) given) ∧
          (¬ kept → ownerGivesUp q.kind given = pushReport (.late (some seq)) { given with
            claims := given.claims.map fun d => if d.seq = seq then { d with revision := none } else d }))) ∧
      (∀ seq off, q.kind = .cut seq off →
        let stands := { given with claims := given.claims.map fun d =>
          if d.seq = seq then { d with withdrawal := none, emptied := false } else d }
        ((∀ c ∈ given.claims, c.seq = seq → c.withdrawal = none) → ownerGivesUp q.kind given = given) ∧
        ((∃ c ∈ given.claims, c.seq = seq) →
          (∀ c ∈ given.claims, c.seq = seq → c.withdrawal ≠ none ∧ c.emptied = false) →
          ownerGivesUp q.kind given = stands) ∧
        ((∃ c ∈ given.claims, c.seq = seq) →
          (∀ c ∈ given.claims, c.seq = seq → c.withdrawal ≠ none ∧ c.emptied = true) →
          ownerGivesUp q.kind given = pushReport (.late (some seq)) stands)) ∧
      (∀ forced, q.kind = .take forced → ownerGivesUp q.kind given =
        if given.floor.state = .bidding then pushReport .takeLost (removeUnstarted PacketKind.isTake { given with
          floor := { given.floor with state := .idle, bidRunning := false, takeEchoed := false, reportDue := true } })
        else given) ∧
      (q.kind = .item → ownerGivesUp q.kind given = { given with item := { given.item with own := .none } }) ∧
      (q.kind = .state → ownerGivesUp q.kind given = given)) ∧
    (q.sent ≠ none → 15 ≤ q.attempts → q.kind = .yield → s.floor.yieldOwed = true →
      (∀ r ∈ before ++ after ++ s.line.waiting, r.kind ≠ .yield) →
      exec .readbackMismatch s = .next (finish (requestPacket .yield
        (enterWaiting (State.flagged .lineFault { s with line := { s.line with queue := before ++ after } }))))) ∧
    (q.sent ≠ none → q.mark = .inFlight → q.attempts < 15 → exec .readbackMismatch s = .next (finish (removedAtStop q.kind
      (enterWaiting { s with line := { s.line with queue := before ++ after } })))) ∧
    (q.sent = none → after = [] → exec .readbackMismatch s = .next s)

/-- R143, R144, R145, R147: a bad packet, and one that fails the envelope checks, is discarded with LINE_FAULT. One with the
station's own number takes the station to MUTE: nothing is queued or waits, and it is off the floor. One that does not fit the
configuration flags CONFIG_MISMATCH and sets the mismatch count to 3F, which clears when the count runs out. That claims keep
their withdrawals in MUTE is the model's reading (log entry 17), and that the expiry takes the last 1 off the count its choice
(log entry 4). -/
def Obligations.UnfitPacketsReachNoBlock : Prop :=
  (∀ s : State,
    let bad := State.flagged .lineFault { s with line := { s.line with receiving := none } }
    exec .cutShortPacket s = .next bad ∧ exec .discardedPacket s = .next bad ∧
    ∀ p k, packetValid p k = false → exec (packetCommand p k) s = .next (finish bad)) ∧
  (∀ (k : Packet) (s : State), packetValid s.own k = true →
    (s.station.mode = .mute →
      exec (packetCommand s.own k) s = .next (finish { s with line := { s.line with receiving := none } })) ∧
    (s.station.mode ≠ .mute → ∃ t, exec (packetCommand s.own k) s = .next t ∧ t.station.mode = .mute ∧ t.line.queue = [] ∧
      t.line.waiting = [] ∧ t.floor.state = .idle ∧ t.floor.holder ≠ some s.own ∧ t.item.own = .none ∧ t.map = s.map ∧
      t.text = s.text ∧ t.ref = s.ref ∧
      ((s.floor.state = .live ∨ s.floor.state = .yielding) →
        t.claims = (s.claims.filter fun c => decide (c.state ≠ .planned)).map fun c => { c with revision := none }))) ∧
  (∀ (p : Nat) (k : Packet) (s : State), packetValid p k = true → p ≠ s.own → packetFits s k = false →
    exec (packetCommand p k) s = .next (finish (State.flagged .configMismatch
      { s.hearing p with line := { (s.hearing p).line with mismatch := 3 * s.fps } }))) ∧
  (∀ s : State, s.line.mismatch = 1 →
    exec .mismatchCountExpiry s = .next { s with line := { s.line with mismatch := 0 } })

/-! ### The Row Map -/

/-- R73, R90, R93, R102: a peer's CUE, and its REVISE of a cue the map does not hold, is entered, and then the PLANNED claims
it overtakes are handed back: those that share a row with a peer's cue whose minimum-off is still to come and lies, with
the claim's gap, after the claim's show; a REVISE of a cue the map holds leaves the map as it stands. Its CUT at or before
the show of the cue takes the cue from the map; a later one brings the off bound forward, not before n + 1; a CUT of a cue
the map does not hold changes nothing. -/
def Obligations.CuePacketsReachMap : Prop :=
  (∀ (p : Nat) (b : CueBody) (s : State),
    let heard := s.hearing p
    (Delivered p (.cue b) s →
      exec (.cuePacket p b) s = .next (finish (overtakenTest (expireCues (mapCue p b heard))))) ∧
    (Delivered p (.revise b) s → (∀ d ∈ s.map, ¬ (d.owner = p ∧ d.seq = b.seq)) →
      exec (.revisePacket p b) s = .next (finish (overtakenTest (expireCues (mapCue p b heard))))) ∧
    (Delivered p (.revise b) s → (∃ d ∈ s.map, d.owner = p ∧ d.seq = b.seq) →
      exec (.revisePacket p b) s = .next (finish (overtakenTest (expireCues heard))))) ∧
  (∀ (p : Nat) (seq : Byte) (off : Frame) (s : State), Delivered p (.cut seq off) s →
    let mine := fun d : Cue => d.owner = p ∧ d.seq = seq
    (∀ c, findCue p seq s = some c → 0 ≤ s.dist off c.showAt →
      exec (.cutPacket p seq off) s = .next (finish { s.hearing p with
        map := s.map.filter fun d => decide (¬ mine d) })) ∧
    (∀ c, findCue p seq s = some c → s.dist off c.showAt < 0 →
      exec (.cutPacket p seq off) s = .next (finish { s.hearing p with
        map := s.map.map fun d => if mine d then
          { d with offBound :=
            if s.dist ((s.n + 1) % s.day) (earlierOf s.day d.offBound off) < 0 then
              earlierOf s.day ((s.n + 1) % s.day) d.offBound
            else earlierOf s.day d.offBound off } else d })) ∧
    ((∀ d ∈ s.map, ¬ mine d) → exec (.cutPacket p seq off) s = .next (finish (s.hearing p)))) ∧
  (∀ s : State, overtakenTest s = handBack (fun c => decide (∃ d ∈ s.map, d.owner ≠ s.own ∧
    d.low < c.low + c.count ∧ c.low < d.low + d.count ∧ 0 < s.dist s.n d.minOff ∧
    0 < s.dist c.showAt (s.plus d.minOff c.gap))) s)

/-- R82, R90, R91, R92, R95, R97, R98: a cue entered takes the place of an entry of the same identity, its off bound starting
at its linger-off. When it conflicts with a cue that is preferred it is not kept, and nothing else goes; otherwise it is
kept, the cues it conflicts with go, and of the others only the off bound of one on a shared row with an earlier show
changes, to the later of its minimum-off and the new show less the gap. Its own is brought to the later of its minimum-off
and the show less the gap of a later cue on a shared row. Room on a full row is made by evicting the cue with the earliest
off bound, then show, then owner, with MAP_FULL, whose claim ends when it is the station's own; the claim of an own cue
that loses a conflict ends too, and unless it is withdrawing already a CUT at its show, or 4 frames ahead on air, is
queued in ACTIVE and RESETTING, for several in the order of the map (the model's choice, log entry 42); of two cues of one
owner with equal shows the one entered is kept (the model's choice, log entry 56); the low row comes first (the model's
choice, log entry 41). -/
def Obligations.CueEntersMap : Prop :=
  (∀ (inHand : Cue → Bool) (row : Nat) (s : State),
    let on := s.map.filter fun d => decide (d.low ≤ row ∧ row < d.low + d.count)
    let before := fun a d : Cue => s.dist s.n a.offBound < s.dist s.n d.offBound ∨
      (s.dist s.n a.offBound = s.dist s.n d.offBound ∧ (s.dist s.n a.showAt < s.dist s.n d.showAt ∨
        (s.dist s.n a.showAt = s.dist s.n d.showAt ∧ a.owner < d.owner)))
    (on.length < 8 → makeRowRoom inHand row s = s) ∧
    (8 ≤ on.length → (∃ d ∈ on, inHand d = false) → ∃ v ∈ on, inHand v = false ∧
      (∀ d ∈ on, inHand d = false → ¬ before d v) ∧
      let left := State.flagged .mapFull { s with map := s.map.filter fun d => decide (¬ (d.owner = v.owner ∧ d.seq = v.seq)) }
      makeRowRoom inHand row s = if v.owner = s.own then endClaim v.seq left else left)) ∧
  (∀ (inHand : Cue → Bool) (c : Cue) (s : State),
    let low := makeRowRoom inHand c.low s
    let room := if c.count = 2 then makeRowRoom inHand (c.low + 1) low else low
    makeEntries inHand c s = { room with map := insertCue s.day s.n c room.map }) ∧
  (∀ (p : Nat) (b : CueBody) (s : State), (b.count = 1 ∨ b.count = 2) →
    (∀ row, ((rowEntries s row).filter fun d => decide (¬ (d.owner = p ∧ d.seq = b.seq))).length < 8) →
    let c : Cue := { owner := p, seq := b.seq, showAt := b.showAt, minOff := b.minOff, lingerOff := b.lingerOff,
                     offBound := b.lingerOff, gap := b.gap, low := b.low, count := b.count }
    let others := s.map.filter fun d => decide (¬ (d.owner = p ∧ d.seq = b.seq))
    let edge := (b.showAt + (s.day - b.gap)) % s.day
    let shares := fun d : Cue => d.low < b.low + b.count ∧ b.low < d.low + d.count
    let clash := fun d : Cue => shares d ∧ 0 < s.dist d.showAt b.minOff ∧ 0 < s.dist b.showAt d.minOff
    let wins := fun d : Cue => 0 < s.dist d.showAt b.showAt ∨ (s.dist d.showAt b.showAt = 0 ∧ d.owner < p)
    ((∃ d ∈ others, clash d ∧ wins d) → (mapCue p b s).map = others ∧
      mapCue p b s = if p = s.own then conflictLoss b.seq { s with map := others } else { s with map := others }) ∧
    ((∀ d ∈ others, clash d → ¬ wins d) →
      (∃ entries : List Cue, mapCue p b s = { ((others.filter fun d => decide (clash d)).foldl
        (fun u d => if d.owner = s.own then conflictLoss d.seq u else u) { s with map := entries }) with
          map := (mapCue p b s).map }) ∧
      (∃ x, { c with offBound := x } ∈ (mapCue p b s).map ∧
        ((∀ d ∈ others, shares d → s.dist b.showAt d.showAt ≤ 0) → x = b.lingerOff) ∧
        (∀ m ∈ others, others.Nodup → shares m → ¬ clash m → 0 < s.dist b.showAt m.showAt →
          (∀ d ∈ others, d ≠ m → shares d → ¬ clash d → s.dist b.showAt d.showAt ≤ 0) →
          let bound := (m.showAt + (s.day - m.gap)) % s.day
          x = if 0 < s.dist bound b.lingerOff then
            clampBound s.day s.n b.lingerOff (earlierOf s.day (laterOf s.day b.minOff bound) b.lingerOff)
          else b.lingerOff)) ∧
      (∀ e ∈ (mapCue p b s).map, ¬ (e.owner = p ∧ e.seq = b.seq) →
        ∃ d ∈ others, ¬ clash d ∧
          ((¬ shares d ∨ s.dist d.showAt b.showAt ≤ 0 ∨ s.dist edge d.offBound ≤ 0) → e = d) ∧
          (shares d → 0 < s.dist d.showAt b.showAt → 0 < s.dist edge d.offBound →
            e = { d with offBound := clampBound s.day s.n d.offBound (earlierOf s.day (laterOf s.day d.minOff edge) d.offBound) })) ∧
      (∀ d ∈ others, ¬ clash d → ∃ e ∈ (mapCue p b s).map, e = { d with offBound := e.offBound }))) ∧
  (∀ (seq : Byte) (s : State),
    let ends := fun c : Claim => c.seq = seq ∧ (c.state = .claimed ∨ c.state = .onAir)
    ((∀ c ∈ s.claims, ¬ ends c) → conflictLoss seq s = s) ∧
    (∀ before c after, s.claims = before ++ c :: after → (∀ d ∈ before, ¬ ends d) → ends c →
      conflictLoss seq s =
        if c.withdrawal = none ∧ (s.station.mode = .active ∨ s.station.mode = .resetting) then
          queueCut seq (if c.state = .claimed then c.showAt else s.plus s.n 4) .none (endClaim seq s)
        else endClaim seq s))

/-- R12, R13, R15, R100, R115, R140, R146, R157: a peer's STATE enters its announcements; a time source zeroes the peer-time
silence count, and sets the frame number and FOLLOWING unless the station is ANCHORED, with TIME_STEP when the number
moves by more than one and the work of a step when it moves at all; a sender on the floor becomes the holder of a view
that has none; a JOINING station takes up its item number; and the map takes its claims: the sender's cues in it are then
among those listed, with the rows, show and minimum-off listed, a STATE that lists none takes them all away, and every
other cue was there before, its off bound apart. A listed cue that has not ended is entered, with the linger-off and gap
held for it, where the rows have room and it loses no conflict, and a cue that conflicts with none listed stands.
Boundaries inside the reception carry the frame on; one given with no reception begun counts none (the model's choice, log
entry 32). -/
def Obligations.StateIsTaken : Prop :=
  (∀ (p : Nat) (b : StateBody) (s : State), Delivered p (.state b) s → s.line.peers.length = 16 →
    let source := b.status = .anchored ∧ ∀ q, 1 ≤ q → q < p → q ≠ s.own →
      (peerEntry q s).presence = .present → (peerEntry q s).status ≠ some .anchored
    ∃ v, exec (.statePacket p b) s = .next (finish (overtakenTest (expireCues (mapState p b.claims v)))) ∧
      peerEntry p v = { presence := .present, unheard := 0, floor := some b.floor, status := some b.status } ∧
      (¬ source → v.ref = s.ref) ∧
      (source → s.ref.status = .anchored → v.ref = { s.ref with peerSilence := 0, sourceSeen := true }) ∧
      (source → s.ref.status ≠ .anchored → v.ref = { s.ref with
        peerSilence := 0, sourceSeen := true, n := (b.frame + s.line.receiving.getD 0) % s.day, status := .following }) ∧
      (¬ source ∨ s.ref.status = .anchored → v.map = s.map ∧ v.claims = s.claims ∧ v.report = s.report) ∧
      (source → s.ref.status ≠ .anchored →
        let heard := s.hearing p
        let f := (b.frame + s.line.receiving.getD 0) % s.day
        let d := s.dist s.n f
        let told : Peer := { presence := .present, unheard := 0, floor := some b.floor, status := some b.status }
        let loaded : State := { heard with
          line := { heard.line with peers := s.line.peers.set (p - 1) told },
          ref := { s.ref with peerSilence := 0, sourceSeen := true, n := f, status := .following } }
        let moved := if 1 < d ∨ d < -1 then State.flagged .timeStep loaded else loaded
        v = { (if d = 0 then moved else showAndExpire true moved) with floor := v.floor, item := v.item }) ∧
      (s.floor.holder = none → (b.floor = .live ∨ b.floor = .yielding) → v.floor = { s.floor with
        holder := some p, successor := if s.floor.successor = some p then none else s.floor.successor,
        reportDue := true }) ∧
      (s.floor.holder ≠ none ∨ b.floor = .idle ∨ b.floor = .bidding → v.floor = s.floor) ∧
      v.item.number = (if s.station.mode = .joining then b.item else s.item.number) ∧ v.text = s.text) ∧
  (∀ (p : Nat) (l : List StateClaim) (s : State),
    (∀ c ∈ (mapState p l s).map, c.owner = p → ∃ k ∈ l, c.seq = k.seq ∧ c.low = k.low ∧ c.count = k.count ∧
      c.showAt = k.showAt ∧ c.minOff = k.minOff) ∧
    (l = [] → mapState p l s = { s with map := s.map.filter fun c => decide (c.owner ≠ p) }) ∧
    (∀ c ∈ (mapState p l s).map, c.owner ≠ p → ∃ d ∈ s.map, c = { d with offBound := c.offBound }) ∧
    (let others := s.map.filter fun d => decide (d.owner ≠ p)
    let listed := listedCues p l s
    let shares := fun a d : Cue => d.low < a.low + a.count ∧ a.low < d.low + d.count
    let clash := fun a d : Cue => shares a d ∧ 0 < s.dist d.showAt a.minOff ∧ 0 < s.dist a.showAt d.minOff
    let wins := fun a d : Cue => 0 < s.dist a.showAt d.showAt ∨ (s.dist a.showAt d.showAt = 0 ∧ a.owner < d.owner)
    (∀ k ∈ l,
      let held := findCue p k.seq s
      let linger := (held.map Cue.lingerOff).getD k.offBound
      let off := earlierOf s.day k.offBound linger
      let entered : Cue := { owner := p, seq := k.seq, showAt := k.showAt, minOff := k.minOff, lingerOff := linger,
                             offBound := off, gap := (held.map Cue.gap).getD 0, low := k.low, count := k.count }
      s.dist off s.n < 0 → entered ∈ listed) ∧
    ((l.map StateClaim.seq).Nodup → (∀ k ∈ l, k.count = 1 ∨ k.count = 2) →
      (∀ row : Nat, ((others ++ listed).filter fun d => decide (d.low ≤ row ∧ row < d.low + d.count)).length ≤ 8) →
      (∀ c ∈ listed, (∀ d ∈ others ++ listed, d.owner ≠ p ∨ d.seq ≠ c.seq → clash c d → wins c d) →
        ∃ x, { c with offBound := x } ∈ (mapState p l s).map) ∧
      (∀ d ∈ others, (∀ c ∈ listed, ¬ clash c d) → ∃ x, { d with offBound := x } ∈ (mapState p l s).map))))

/-! ### What holds of every act -/

/-- What the end of an act leaves as it was; when nothing is left to do it leaves everything. -/
def Obligations.FinishKeepsRest : Prop :=
  ∀ s : State,
    ((finish s).pending = s.pending ∧ (finish s).straps = s.straps ∧ (finish s).ref = s.ref ∧
      (finish s).script = s.script ∧ (finish s).openOrders = s.openOrders ∧ (finish s).item.number = s.item.number ∧
      (finish s).item.lastBoundary = s.item.lastBoundary ∧ (finish s).line.idle = s.line.idle ∧
      (finish s).line.peers = s.line.peers ∧ (finish s).line.lastSender = s.line.lastSender ∧
      (finish s).pacing.holding = s.pacing.holding ∧ (finish s).pacing.command = s.pacing.command) ∧
    (s.station.mode ≠ .resetting → (finish s).map = s.map ∧ (finish s).floor.holder = s.floor.holder ∧
      ∃ planned, (finish s).claims = s.claims ++ planned ∧ ∀ c ∈ planned, c.state = .planned) ∧
    (∃ k, (finish s).text = { s.text with queue := s.text.queue.drop k }) ∧
    (Settled s → finish s = s)

/-- R168: a sticky flag once set stays set until STATUS, RESET or POWER_ON. -/
def Obligations.StickyFlagsStay : Prop :=
  ∀ (f : Sticky) (i : Instr) (s t : State), s.report.flags.has f = true → exec i s = .next t →
    i ≠ .status → i ≠ .reset → (∀ pins m, i ≠ .powerOn pins m) → t.report.flags.has f = true

/-- Every invariant below holds right after reset. -/
def Obligations.ResetMeetsInvariants : Prop :=
  TextOk State.reset ∧ ScriptOk State.reset ∧ PacingOk State.reset ∧ FloorOk State.reset ∧ CapacityOk State.reset ∧
  MapOk State.reset ∧ Settled State.reset

/-- R19, R21, R39, R41, R43: every step keeps every text within one or two rows of 1 to W characters, and the Script Store
within its limits, its count of characters right. -/
def Obligations.TextStaysLaid : Prop :=
  ∀ s t : State, TextOk s → ScriptOk s → step s = .next t → TextOk t ∧ ScriptOk t

/-- R128, R130, R131: every step keeps the active set legal and the pending values in their ranges. -/
def Obligations.PacingStaysLegal : Prop :=
  ∀ s t : State, PacingOk s → step s = .next t → PacingOk t

/-- R108, R109, R162: every step keeps the floor state, the view and the mode in agreement. -/
def Obligations.FloorStaysConsistent : Prop :=
  ∀ s t : State, FloorOk s → step s = .next t → FloorOk t

/-- R30, R70, R154, R165: every step keeps every queue and list within what it holds, no waiting request having started. -/
def Obligations.CapacitiesHold : Prop :=
  ∀ s t : State, CapacityOk s → step s = .next t → CapacityOk t

/-- R91, R96, R98, R104: every step keeps the map free of ended cues, of two cues of one identity and of conflicts, on the
station's rows, and within 8 entries a row. -/
def Obligations.MapStaysLawful : Prop :=
  ∀ s t : State, MapOk s → step s = .next t → MapOk t

/-- R50, R117, R120, R124, R125, R154, R163: every step leaves nothing undone that the manual has done at once. -/
def Obligations.StepLeavesNothingDue : Prop :=
  ∀ s t : State, FloorOk s → Settled s → step s = .next t → Settled t

/-- R143, R144, R170, R171, R172: the bytes of every valid packet are read as that packet. -/
def Obligations.PacketBytesDecode : Prop :=
  ∀ (p : Nat) (k : Packet), packetValid p k = true → decodeLine (Packet.bytes p k) = packetCommand p k
end

