-- ==== Sys2Proof/Laws/State.lean ====
section
/-! SUPPORT. Each field of the state after each update of one unit. -/

namespace Sys2Proof.Machine

variable (s : State)

/-! `modRef` changes `ref` alone. -/

@[simp] theorem State.modRef_pending (f : RefUnit → RefUnit) : (s.modRef f).pending = s.pending := rfl
@[simp] theorem State.modRef_straps (f : RefUnit → RefUnit) : (s.modRef f).straps = s.straps := rfl
@[simp] theorem State.modRef_ref (f : RefUnit → RefUnit) : (s.modRef f).ref = f s.ref := rfl
@[simp] theorem State.modRef_text (f : RefUnit → RefUnit) : (s.modRef f).text = s.text := rfl
@[simp] theorem State.modRef_script (f : RefUnit → RefUnit) : (s.modRef f).script = s.script := rfl
@[simp] theorem State.modRef_timer (f : RefUnit → RefUnit) : (s.modRef f).timer = s.timer := rfl
@[simp] theorem State.modRef_claims (f : RefUnit → RefUnit) : (s.modRef f).claims = s.claims := rfl
@[simp] theorem State.modRef_map (f : RefUnit → RefUnit) : (s.modRef f).map = s.map := rfl
@[simp] theorem State.modRef_floor (f : RefUnit → RefUnit) : (s.modRef f).floor = s.floor := rfl
@[simp] theorem State.modRef_pacing (f : RefUnit → RefUnit) : (s.modRef f).pacing = s.pacing := rfl
@[simp] theorem State.modRef_item (f : RefUnit → RefUnit) : (s.modRef f).item = s.item := rfl
@[simp] theorem State.modRef_line (f : RefUnit → RefUnit) : (s.modRef f).line = s.line := rfl
@[simp] theorem State.modRef_station (f : RefUnit → RefUnit) : (s.modRef f).station = s.station := rfl
@[simp] theorem State.modRef_report (f : RefUnit → RefUnit) : (s.modRef f).report = s.report := rfl
@[simp] theorem State.modRef_openOrders (f : RefUnit → RefUnit) : (s.modRef f).openOrders = s.openOrders := rfl

/-! `modText` changes `text` alone. -/

@[simp] theorem State.modText_pending (f : BlockBuilder → BlockBuilder) : (s.modText f).pending = s.pending := rfl
@[simp] theorem State.modText_straps (f : BlockBuilder → BlockBuilder) : (s.modText f).straps = s.straps := rfl
@[simp] theorem State.modText_ref (f : BlockBuilder → BlockBuilder) : (s.modText f).ref = s.ref := rfl
@[simp] theorem State.modText_text (f : BlockBuilder → BlockBuilder) : (s.modText f).text = f s.text := rfl
@[simp] theorem State.modText_script (f : BlockBuilder → BlockBuilder) : (s.modText f).script = s.script := rfl
@[simp] theorem State.modText_timer (f : BlockBuilder → BlockBuilder) : (s.modText f).timer = s.timer := rfl
@[simp] theorem State.modText_claims (f : BlockBuilder → BlockBuilder) : (s.modText f).claims = s.claims := rfl
@[simp] theorem State.modText_map (f : BlockBuilder → BlockBuilder) : (s.modText f).map = s.map := rfl
@[simp] theorem State.modText_floor (f : BlockBuilder → BlockBuilder) : (s.modText f).floor = s.floor := rfl
@[simp] theorem State.modText_pacing (f : BlockBuilder → BlockBuilder) : (s.modText f).pacing = s.pacing := rfl
@[simp] theorem State.modText_item (f : BlockBuilder → BlockBuilder) : (s.modText f).item = s.item := rfl
@[simp] theorem State.modText_line (f : BlockBuilder → BlockBuilder) : (s.modText f).line = s.line := rfl
@[simp] theorem State.modText_station (f : BlockBuilder → BlockBuilder) : (s.modText f).station = s.station := rfl
@[simp] theorem State.modText_report (f : BlockBuilder → BlockBuilder) : (s.modText f).report = s.report := rfl
@[simp] theorem State.modText_openOrders (f : BlockBuilder → BlockBuilder) : (s.modText f).openOrders = s.openOrders := rfl

/-! `modScript` changes `script` alone. -/

@[simp] theorem State.modScript_pending (f : ScriptStore → ScriptStore) : (s.modScript f).pending = s.pending := rfl
@[simp] theorem State.modScript_straps (f : ScriptStore → ScriptStore) : (s.modScript f).straps = s.straps := rfl
@[simp] theorem State.modScript_ref (f : ScriptStore → ScriptStore) : (s.modScript f).ref = s.ref := rfl
@[simp] theorem State.modScript_text (f : ScriptStore → ScriptStore) : (s.modScript f).text = s.text := rfl
@[simp] theorem State.modScript_script (f : ScriptStore → ScriptStore) : (s.modScript f).script = f s.script := rfl
@[simp] theorem State.modScript_timer (f : ScriptStore → ScriptStore) : (s.modScript f).timer = s.timer := rfl
@[simp] theorem State.modScript_claims (f : ScriptStore → ScriptStore) : (s.modScript f).claims = s.claims := rfl
@[simp] theorem State.modScript_map (f : ScriptStore → ScriptStore) : (s.modScript f).map = s.map := rfl
@[simp] theorem State.modScript_floor (f : ScriptStore → ScriptStore) : (s.modScript f).floor = s.floor := rfl
@[simp] theorem State.modScript_pacing (f : ScriptStore → ScriptStore) : (s.modScript f).pacing = s.pacing := rfl
@[simp] theorem State.modScript_item (f : ScriptStore → ScriptStore) : (s.modScript f).item = s.item := rfl
@[simp] theorem State.modScript_line (f : ScriptStore → ScriptStore) : (s.modScript f).line = s.line := rfl
@[simp] theorem State.modScript_station (f : ScriptStore → ScriptStore) : (s.modScript f).station = s.station := rfl
@[simp] theorem State.modScript_report (f : ScriptStore → ScriptStore) : (s.modScript f).report = s.report := rfl
@[simp] theorem State.modScript_openOrders (f : ScriptStore → ScriptStore) : (s.modScript f).openOrders = s.openOrders := rfl

/-! `modTimer` changes `timer` alone. -/

@[simp] theorem State.modTimer_pending (f : CueTimer → CueTimer) : (s.modTimer f).pending = s.pending := rfl
@[simp] theorem State.modTimer_straps (f : CueTimer → CueTimer) : (s.modTimer f).straps = s.straps := rfl
@[simp] theorem State.modTimer_ref (f : CueTimer → CueTimer) : (s.modTimer f).ref = s.ref := rfl
@[simp] theorem State.modTimer_text (f : CueTimer → CueTimer) : (s.modTimer f).text = s.text := rfl
@[simp] theorem State.modTimer_script (f : CueTimer → CueTimer) : (s.modTimer f).script = s.script := rfl
@[simp] theorem State.modTimer_timer (f : CueTimer → CueTimer) : (s.modTimer f).timer = f s.timer := rfl
@[simp] theorem State.modTimer_claims (f : CueTimer → CueTimer) : (s.modTimer f).claims = s.claims := rfl
@[simp] theorem State.modTimer_map (f : CueTimer → CueTimer) : (s.modTimer f).map = s.map := rfl
@[simp] theorem State.modTimer_floor (f : CueTimer → CueTimer) : (s.modTimer f).floor = s.floor := rfl
@[simp] theorem State.modTimer_pacing (f : CueTimer → CueTimer) : (s.modTimer f).pacing = s.pacing := rfl
@[simp] theorem State.modTimer_item (f : CueTimer → CueTimer) : (s.modTimer f).item = s.item := rfl
@[simp] theorem State.modTimer_line (f : CueTimer → CueTimer) : (s.modTimer f).line = s.line := rfl
@[simp] theorem State.modTimer_station (f : CueTimer → CueTimer) : (s.modTimer f).station = s.station := rfl
@[simp] theorem State.modTimer_report (f : CueTimer → CueTimer) : (s.modTimer f).report = s.report := rfl
@[simp] theorem State.modTimer_openOrders (f : CueTimer → CueTimer) : (s.modTimer f).openOrders = s.openOrders := rfl

/-! `setClaims` changes `claims` alone. -/

@[simp] theorem State.setClaims_pending (l : List Claim) : (s.setClaims l).pending = s.pending := rfl
@[simp] theorem State.setClaims_straps (l : List Claim) : (s.setClaims l).straps = s.straps := rfl
@[simp] theorem State.setClaims_ref (l : List Claim) : (s.setClaims l).ref = s.ref := rfl
@[simp] theorem State.setClaims_text (l : List Claim) : (s.setClaims l).text = s.text := rfl
@[simp] theorem State.setClaims_script (l : List Claim) : (s.setClaims l).script = s.script := rfl
@[simp] theorem State.setClaims_timer (l : List Claim) : (s.setClaims l).timer = s.timer := rfl
@[simp] theorem State.setClaims_claims (l : List Claim) : (s.setClaims l).claims = l := rfl
@[simp] theorem State.setClaims_map (l : List Claim) : (s.setClaims l).map = s.map := rfl
@[simp] theorem State.setClaims_floor (l : List Claim) : (s.setClaims l).floor = s.floor := rfl
@[simp] theorem State.setClaims_pacing (l : List Claim) : (s.setClaims l).pacing = s.pacing := rfl
@[simp] theorem State.setClaims_item (l : List Claim) : (s.setClaims l).item = s.item := rfl
@[simp] theorem State.setClaims_line (l : List Claim) : (s.setClaims l).line = s.line := rfl
@[simp] theorem State.setClaims_station (l : List Claim) : (s.setClaims l).station = s.station := rfl
@[simp] theorem State.setClaims_report (l : List Claim) : (s.setClaims l).report = s.report := rfl
@[simp] theorem State.setClaims_openOrders (l : List Claim) : (s.setClaims l).openOrders = s.openOrders := rfl

/-! `setMap` changes `map` alone. -/

@[simp] theorem State.setMap_pending (l : List Cue) : (s.setMap l).pending = s.pending := rfl
@[simp] theorem State.setMap_straps (l : List Cue) : (s.setMap l).straps = s.straps := rfl
@[simp] theorem State.setMap_ref (l : List Cue) : (s.setMap l).ref = s.ref := rfl
@[simp] theorem State.setMap_text (l : List Cue) : (s.setMap l).text = s.text := rfl
@[simp] theorem State.setMap_script (l : List Cue) : (s.setMap l).script = s.script := rfl
@[simp] theorem State.setMap_timer (l : List Cue) : (s.setMap l).timer = s.timer := rfl
@[simp] theorem State.setMap_claims (l : List Cue) : (s.setMap l).claims = s.claims := rfl
@[simp] theorem State.setMap_map (l : List Cue) : (s.setMap l).map = l := rfl
@[simp] theorem State.setMap_floor (l : List Cue) : (s.setMap l).floor = s.floor := rfl
@[simp] theorem State.setMap_pacing (l : List Cue) : (s.setMap l).pacing = s.pacing := rfl
@[simp] theorem State.setMap_item (l : List Cue) : (s.setMap l).item = s.item := rfl
@[simp] theorem State.setMap_line (l : List Cue) : (s.setMap l).line = s.line := rfl
@[simp] theorem State.setMap_station (l : List Cue) : (s.setMap l).station = s.station := rfl
@[simp] theorem State.setMap_report (l : List Cue) : (s.setMap l).report = s.report := rfl
@[simp] theorem State.setMap_openOrders (l : List Cue) : (s.setMap l).openOrders = s.openOrders := rfl

/-! `modFloor` changes `floor` alone. -/

@[simp] theorem State.modFloor_pending (f : Floor → Floor) : (s.modFloor f).pending = s.pending := rfl
@[simp] theorem State.modFloor_straps (f : Floor → Floor) : (s.modFloor f).straps = s.straps := rfl
@[simp] theorem State.modFloor_ref (f : Floor → Floor) : (s.modFloor f).ref = s.ref := rfl
@[simp] theorem State.modFloor_text (f : Floor → Floor) : (s.modFloor f).text = s.text := rfl
@[simp] theorem State.modFloor_script (f : Floor → Floor) : (s.modFloor f).script = s.script := rfl
@[simp] theorem State.modFloor_timer (f : Floor → Floor) : (s.modFloor f).timer = s.timer := rfl
@[simp] theorem State.modFloor_claims (f : Floor → Floor) : (s.modFloor f).claims = s.claims := rfl
@[simp] theorem State.modFloor_map (f : Floor → Floor) : (s.modFloor f).map = s.map := rfl
@[simp] theorem State.modFloor_floor (f : Floor → Floor) : (s.modFloor f).floor = f s.floor := rfl
@[simp] theorem State.modFloor_pacing (f : Floor → Floor) : (s.modFloor f).pacing = s.pacing := rfl
@[simp] theorem State.modFloor_item (f : Floor → Floor) : (s.modFloor f).item = s.item := rfl
@[simp] theorem State.modFloor_line (f : Floor → Floor) : (s.modFloor f).line = s.line := rfl
@[simp] theorem State.modFloor_station (f : Floor → Floor) : (s.modFloor f).station = s.station := rfl
@[simp] theorem State.modFloor_report (f : Floor → Floor) : (s.modFloor f).report = s.report := rfl
@[simp] theorem State.modFloor_openOrders (f : Floor → Floor) : (s.modFloor f).openOrders = s.openOrders := rfl

/-! `modPacing` changes `pacing` alone. -/

@[simp] theorem State.modPacing_pending (f : PacingSet → PacingSet) : (s.modPacing f).pending = s.pending := rfl
@[simp] theorem State.modPacing_straps (f : PacingSet → PacingSet) : (s.modPacing f).straps = s.straps := rfl
@[simp] theorem State.modPacing_ref (f : PacingSet → PacingSet) : (s.modPacing f).ref = s.ref := rfl
@[simp] theorem State.modPacing_text (f : PacingSet → PacingSet) : (s.modPacing f).text = s.text := rfl
@[simp] theorem State.modPacing_script (f : PacingSet → PacingSet) : (s.modPacing f).script = s.script := rfl
@[simp] theorem State.modPacing_timer (f : PacingSet → PacingSet) : (s.modPacing f).timer = s.timer := rfl
@[simp] theorem State.modPacing_claims (f : PacingSet → PacingSet) : (s.modPacing f).claims = s.claims := rfl
@[simp] theorem State.modPacing_map (f : PacingSet → PacingSet) : (s.modPacing f).map = s.map := rfl
@[simp] theorem State.modPacing_floor (f : PacingSet → PacingSet) : (s.modPacing f).floor = s.floor := rfl
@[simp] theorem State.modPacing_pacing (f : PacingSet → PacingSet) : (s.modPacing f).pacing = f s.pacing := rfl
@[simp] theorem State.modPacing_item (f : PacingSet → PacingSet) : (s.modPacing f).item = s.item := rfl
@[simp] theorem State.modPacing_line (f : PacingSet → PacingSet) : (s.modPacing f).line = s.line := rfl
@[simp] theorem State.modPacing_station (f : PacingSet → PacingSet) : (s.modPacing f).station = s.station := rfl
@[simp] theorem State.modPacing_report (f : PacingSet → PacingSet) : (s.modPacing f).report = s.report := rfl
@[simp] theorem State.modPacing_openOrders (f : PacingSet → PacingSet) : (s.modPacing f).openOrders = s.openOrders := rfl

/-! `modItem` changes `item` alone. -/

@[simp] theorem State.modItem_pending (f : ItemState → ItemState) : (s.modItem f).pending = s.pending := rfl
@[simp] theorem State.modItem_straps (f : ItemState → ItemState) : (s.modItem f).straps = s.straps := rfl
@[simp] theorem State.modItem_ref (f : ItemState → ItemState) : (s.modItem f).ref = s.ref := rfl
@[simp] theorem State.modItem_text (f : ItemState → ItemState) : (s.modItem f).text = s.text := rfl
@[simp] theorem State.modItem_script (f : ItemState → ItemState) : (s.modItem f).script = s.script := rfl
@[simp] theorem State.modItem_timer (f : ItemState → ItemState) : (s.modItem f).timer = s.timer := rfl
@[simp] theorem State.modItem_claims (f : ItemState → ItemState) : (s.modItem f).claims = s.claims := rfl
@[simp] theorem State.modItem_map (f : ItemState → ItemState) : (s.modItem f).map = s.map := rfl
@[simp] theorem State.modItem_floor (f : ItemState → ItemState) : (s.modItem f).floor = s.floor := rfl
@[simp] theorem State.modItem_pacing (f : ItemState → ItemState) : (s.modItem f).pacing = s.pacing := rfl
@[simp] theorem State.modItem_item (f : ItemState → ItemState) : (s.modItem f).item = f s.item := rfl
@[simp] theorem State.modItem_line (f : ItemState → ItemState) : (s.modItem f).line = s.line := rfl
@[simp] theorem State.modItem_station (f : ItemState → ItemState) : (s.modItem f).station = s.station := rfl
@[simp] theorem State.modItem_report (f : ItemState → ItemState) : (s.modItem f).report = s.report := rfl
@[simp] theorem State.modItem_openOrders (f : ItemState → ItemState) : (s.modItem f).openOrders = s.openOrders := rfl

/-! `modLine` changes `line` alone. -/

@[simp] theorem State.modLine_pending (f : LineUnit → LineUnit) : (s.modLine f).pending = s.pending := rfl
@[simp] theorem State.modLine_straps (f : LineUnit → LineUnit) : (s.modLine f).straps = s.straps := rfl
@[simp] theorem State.modLine_ref (f : LineUnit → LineUnit) : (s.modLine f).ref = s.ref := rfl
@[simp] theorem State.modLine_text (f : LineUnit → LineUnit) : (s.modLine f).text = s.text := rfl
@[simp] theorem State.modLine_script (f : LineUnit → LineUnit) : (s.modLine f).script = s.script := rfl
@[simp] theorem State.modLine_timer (f : LineUnit → LineUnit) : (s.modLine f).timer = s.timer := rfl
@[simp] theorem State.modLine_claims (f : LineUnit → LineUnit) : (s.modLine f).claims = s.claims := rfl
@[simp] theorem State.modLine_map (f : LineUnit → LineUnit) : (s.modLine f).map = s.map := rfl
@[simp] theorem State.modLine_floor (f : LineUnit → LineUnit) : (s.modLine f).floor = s.floor := rfl
@[simp] theorem State.modLine_pacing (f : LineUnit → LineUnit) : (s.modLine f).pacing = s.pacing := rfl
@[simp] theorem State.modLine_item (f : LineUnit → LineUnit) : (s.modLine f).item = s.item := rfl
@[simp] theorem State.modLine_line (f : LineUnit → LineUnit) : (s.modLine f).line = f s.line := rfl
@[simp] theorem State.modLine_station (f : LineUnit → LineUnit) : (s.modLine f).station = s.station := rfl
@[simp] theorem State.modLine_report (f : LineUnit → LineUnit) : (s.modLine f).report = s.report := rfl
@[simp] theorem State.modLine_openOrders (f : LineUnit → LineUnit) : (s.modLine f).openOrders = s.openOrders := rfl

/-! `modStation` changes `station` alone. -/

@[simp] theorem State.modStation_pending (f : StationUnit → StationUnit) : (s.modStation f).pending = s.pending := rfl
@[simp] theorem State.modStation_straps (f : StationUnit → StationUnit) : (s.modStation f).straps = s.straps := rfl
@[simp] theorem State.modStation_ref (f : StationUnit → StationUnit) : (s.modStation f).ref = s.ref := rfl
@[simp] theorem State.modStation_text (f : StationUnit → StationUnit) : (s.modStation f).text = s.text := rfl
@[simp] theorem State.modStation_script (f : StationUnit → StationUnit) : (s.modStation f).script = s.script := rfl
@[simp] theorem State.modStation_timer (f : StationUnit → StationUnit) : (s.modStation f).timer = s.timer := rfl
@[simp] theorem State.modStation_claims (f : StationUnit → StationUnit) : (s.modStation f).claims = s.claims := rfl
@[simp] theorem State.modStation_map (f : StationUnit → StationUnit) : (s.modStation f).map = s.map := rfl
@[simp] theorem State.modStation_floor (f : StationUnit → StationUnit) : (s.modStation f).floor = s.floor := rfl
@[simp] theorem State.modStation_pacing (f : StationUnit → StationUnit) : (s.modStation f).pacing = s.pacing := rfl
@[simp] theorem State.modStation_item (f : StationUnit → StationUnit) : (s.modStation f).item = s.item := rfl
@[simp] theorem State.modStation_line (f : StationUnit → StationUnit) : (s.modStation f).line = s.line := rfl
@[simp] theorem State.modStation_station (f : StationUnit → StationUnit) : (s.modStation f).station = f s.station := rfl
@[simp] theorem State.modStation_report (f : StationUnit → StationUnit) : (s.modStation f).report = s.report := rfl
@[simp] theorem State.modStation_openOrders (f : StationUnit → StationUnit) : (s.modStation f).openOrders = s.openOrders := rfl

/-! `modReport` changes `report` alone. -/

@[simp] theorem State.modReport_pending (f : ReportUnit → ReportUnit) : (s.modReport f).pending = s.pending := rfl
@[simp] theorem State.modReport_straps (f : ReportUnit → ReportUnit) : (s.modReport f).straps = s.straps := rfl
@[simp] theorem State.modReport_ref (f : ReportUnit → ReportUnit) : (s.modReport f).ref = s.ref := rfl
@[simp] theorem State.modReport_text (f : ReportUnit → ReportUnit) : (s.modReport f).text = s.text := rfl
@[simp] theorem State.modReport_script (f : ReportUnit → ReportUnit) : (s.modReport f).script = s.script := rfl
@[simp] theorem State.modReport_timer (f : ReportUnit → ReportUnit) : (s.modReport f).timer = s.timer := rfl
@[simp] theorem State.modReport_claims (f : ReportUnit → ReportUnit) : (s.modReport f).claims = s.claims := rfl
@[simp] theorem State.modReport_map (f : ReportUnit → ReportUnit) : (s.modReport f).map = s.map := rfl
@[simp] theorem State.modReport_floor (f : ReportUnit → ReportUnit) : (s.modReport f).floor = s.floor := rfl
@[simp] theorem State.modReport_pacing (f : ReportUnit → ReportUnit) : (s.modReport f).pacing = s.pacing := rfl
@[simp] theorem State.modReport_item (f : ReportUnit → ReportUnit) : (s.modReport f).item = s.item := rfl
@[simp] theorem State.modReport_line (f : ReportUnit → ReportUnit) : (s.modReport f).line = s.line := rfl
@[simp] theorem State.modReport_station (f : ReportUnit → ReportUnit) : (s.modReport f).station = s.station := rfl
@[simp] theorem State.modReport_report (f : ReportUnit → ReportUnit) : (s.modReport f).report = f s.report := rfl
@[simp] theorem State.modReport_openOrders (f : ReportUnit → ReportUnit) : (s.modReport f).openOrders = s.openOrders := rfl

/-! The straps are read alike before and after an update of another unit. -/

theorem State.own_congr {s t : State} (h : t.straps = s.straps) : t.own = s.own := by simp only [State.own, h]
theorem State.fps_congr {s t : State} (h : t.straps = s.straps) : t.fps = s.fps := by simp only [State.fps, h]
theorem State.day_congr {s t : State} (h : t.straps = s.straps) : t.day = s.day := by simp only [State.day, State.fps, h]

/-- The straps of a part give 25 or 30 frames per second (R160). -/
theorem State.fps_eq : s.fps = 25 ∨ s.fps = 30 := by
  unfold State.fps StrapPins.fps; split <;> simp

/-- The station number lies in 1..16 (R160). -/
theorem State.own_range : 1 ≤ s.own ∧ s.own ≤ 16 := by
  have := s.straps.station.isLt
  unfold State.own StrapPins.number; omega

/-- The row width lies in 32..42 (R160). -/
theorem State.rowWidth_range : 32 ≤ s.rowWidth ∧ s.rowWidth ≤ 42 := by
  unfold State.rowWidth StrapPins.rowWidth; omega

/-- The number of display rows is 2 or 3 (R160). -/
theorem State.displayRows_eq : s.displayRows = 2 ∨ s.displayRows = 3 := by
  unfold State.displayRows StrapPins.displayRows; split <;> simp

end Sys2Proof.Machine
end

