-- ==== Sys2Proof/Laws/FrameOps.lean ====
section
/-! SUPPORT. What the shared operations of Machine/Ops.lean leave unchanged: every unit of the state that the equations name. -/

namespace Sys2Proof.Machine

@[simp] theorem flag_frame (f : Sticky) (s : State) :
    (State.flag f s).pending = s.pending ∧ (State.flag f s).straps = s.straps ∧ (State.flag f s).ref = s.ref ∧
    (State.flag f s).text = s.text ∧ (State.flag f s).script = s.script ∧ (State.flag f s).timer = s.timer ∧
    (State.flag f s).claims = s.claims ∧ (State.flag f s).map = s.map ∧ (State.flag f s).floor = s.floor ∧
    (State.flag f s).pacing = s.pacing ∧ (State.flag f s).item = s.item ∧ (State.flag f s).line = s.line ∧
    (State.flag f s).station = s.station ∧ (State.flag f s).openOrders = s.openOrders := by simp [State.flag]

@[simp] theorem flagIf_frame (b : Bool) (f : Sticky) (s : State) :
    (State.flagIf b f s).pending = s.pending ∧ (State.flagIf b f s).straps = s.straps ∧ (State.flagIf b f s).ref = s.ref ∧
    (State.flagIf b f s).text = s.text ∧ (State.flagIf b f s).script = s.script ∧ (State.flagIf b f s).timer = s.timer ∧
    (State.flagIf b f s).claims = s.claims ∧ (State.flagIf b f s).map = s.map ∧ (State.flagIf b f s).floor = s.floor ∧
    (State.flagIf b f s).pacing = s.pacing ∧ (State.flagIf b f s).item = s.item ∧ (State.flagIf b f s).line = s.line ∧
    (State.flagIf b f s).station = s.station ∧ (State.flagIf b f s).openOrders = s.openOrders := by
  unfold State.flagIf; split <;> simp

@[simp] theorem pushReport_frame (r : Report) (s : State) :
    (pushReport r s).pending = s.pending ∧ (pushReport r s).straps = s.straps ∧ (pushReport r s).ref = s.ref ∧
    (pushReport r s).text = s.text ∧ (pushReport r s).script = s.script ∧ (pushReport r s).timer = s.timer ∧
    (pushReport r s).claims = s.claims ∧ (pushReport r s).map = s.map ∧ (pushReport r s).floor = s.floor ∧
    (pushReport r s).pacing = s.pacing ∧ (pushReport r s).item = s.item ∧ (pushReport r s).line = s.line ∧
    (pushReport r s).station = s.station ∧ (pushReport r s).openOrders = s.openOrders := by simp [pushReport]

@[simp] theorem pushReports_frame (l : List Report) (s : State) :
    (pushReports l s).pending = s.pending ∧ (pushReports l s).straps = s.straps ∧ (pushReports l s).ref = s.ref ∧
    (pushReports l s).text = s.text ∧ (pushReports l s).script = s.script ∧ (pushReports l s).timer = s.timer ∧
    (pushReports l s).claims = s.claims ∧ (pushReports l s).map = s.map ∧ (pushReports l s).floor = s.floor ∧
    (pushReports l s).pacing = s.pacing ∧ (pushReports l s).item = s.item ∧ (pushReports l s).line = s.line ∧
    (pushReports l s).station = s.station ∧ (pushReports l s).openOrders = s.openOrders := by
  induction l generalizing s with
  | nil => simp [pushReports]
  | cons c cs ih => simp [pushReports, ih]

@[simp] theorem enterWaiting_frame (s : State) :
    (enterWaiting s).pending = s.pending ∧ (enterWaiting s).straps = s.straps ∧ (enterWaiting s).ref = s.ref ∧
    (enterWaiting s).text = s.text ∧ (enterWaiting s).script = s.script ∧ (enterWaiting s).timer = s.timer ∧
    (enterWaiting s).claims = s.claims ∧ (enterWaiting s).map = s.map ∧ (enterWaiting s).floor = s.floor ∧
    (enterWaiting s).pacing = s.pacing ∧ (enterWaiting s).station = s.station ∧ (enterWaiting s).report = s.report ∧
    (enterWaiting s).openOrders = s.openOrders := by
  unfold enterWaiting; dsimp only; split <;> simp

@[simp] theorem requestPacket_frame (k : PacketKind) (s : State) :
    (requestPacket k s).pending = s.pending ∧ (requestPacket k s).straps = s.straps ∧ (requestPacket k s).ref = s.ref ∧
    (requestPacket k s).text = s.text ∧ (requestPacket k s).script = s.script ∧ (requestPacket k s).timer = s.timer ∧
    (requestPacket k s).claims = s.claims ∧ (requestPacket k s).map = s.map ∧ (requestPacket k s).floor = s.floor ∧
    (requestPacket k s).pacing = s.pacing ∧ (requestPacket k s).item = s.item ∧ (requestPacket k s).station = s.station ∧
    (requestPacket k s).report = s.report ∧ (requestPacket k s).openOrders = s.openOrders := by
  unfold requestPacket; split <;> simp

@[simp] theorem removeUnstarted_frame (p : PacketKind → Bool) (s : State) :
    (removeUnstarted p s).pending = s.pending ∧ (removeUnstarted p s).straps = s.straps ∧ (removeUnstarted p s).ref = s.ref ∧
    (removeUnstarted p s).text = s.text ∧ (removeUnstarted p s).script = s.script ∧ (removeUnstarted p s).timer = s.timer ∧
    (removeUnstarted p s).claims = s.claims ∧ (removeUnstarted p s).map = s.map ∧ (removeUnstarted p s).floor = s.floor ∧
    (removeUnstarted p s).pacing = s.pacing ∧ (removeUnstarted p s).station = s.station ∧
    (removeUnstarted p s).report = s.report ∧ (removeUnstarted p s).openOrders = s.openOrders := by simp [removeUnstarted]

@[simp] theorem dropOverflow_frame (s : State) :
    (dropOverflow s).pending = s.pending ∧ (dropOverflow s).straps = s.straps ∧ (dropOverflow s).ref = s.ref ∧
    (dropOverflow s).script = s.script ∧ (dropOverflow s).claims = s.claims ∧ (dropOverflow s).map = s.map ∧
    (dropOverflow s).floor = s.floor ∧ (dropOverflow s).pacing = s.pacing ∧ (dropOverflow s).item = s.item ∧
    (dropOverflow s).line = s.line ∧ (dropOverflow s).station = s.station ∧ (dropOverflow s).openOrders = s.openOrders := by
  simp only [dropOverflow]; (repeat' split) <;> simp

@[simp] theorem enterTail_frame (b : Block) (s : State) :
    (enterTail b s).pending = s.pending ∧ (enterTail b s).straps = s.straps ∧ (enterTail b s).ref = s.ref ∧
    (enterTail b s).script = s.script ∧ (enterTail b s).claims = s.claims ∧ (enterTail b s).map = s.map ∧
    (enterTail b s).floor = s.floor ∧ (enterTail b s).pacing = s.pacing ∧ (enterTail b s).item = s.item ∧
    (enterTail b s).line = s.line ∧ (enterTail b s).station = s.station ∧ (enterTail b s).openOrders = s.openOrders := by simp [enterTail]

@[simp] theorem enterHead_frame (b : Block) (s : State) :
    (enterHead b s).pending = s.pending ∧ (enterHead b s).straps = s.straps ∧ (enterHead b s).ref = s.ref ∧
    (enterHead b s).script = s.script ∧ (enterHead b s).claims = s.claims ∧ (enterHead b s).map = s.map ∧
    (enterHead b s).floor = s.floor ∧ (enterHead b s).pacing = s.pacing ∧ (enterHead b s).item = s.item ∧
    (enterHead b s).line = s.line ∧ (enterHead b s).station = s.station ∧ (enterHead b s).openOrders = s.openOrders := by
  unfold enterHead; split <;> simp

@[simp] theorem enterHeads_frame (l : List Block) (s : State) :
    (enterHeads l s).pending = s.pending ∧ (enterHeads l s).straps = s.straps ∧ (enterHeads l s).ref = s.ref ∧
    (enterHeads l s).script = s.script ∧ (enterHeads l s).claims = s.claims ∧ (enterHeads l s).map = s.map ∧
    (enterHeads l s).floor = s.floor ∧ (enterHeads l s).pacing = s.pacing ∧ (enterHeads l s).item = s.item ∧
    (enterHeads l s).line = s.line ∧ (enterHeads l s).station = s.station ∧ (enterHeads l s).openOrders = s.openOrders := by
  induction l generalizing s with
  | nil => simp [enterHeads]
  | cons c cs ih => simp [enterHeads, ih]

@[simp] theorem updateClaim_frame (seq : Byte) (f : Claim → Claim) (s : State) :
    (updateClaim seq f s).pending = s.pending ∧ (updateClaim seq f s).straps = s.straps ∧ (updateClaim seq f s).ref = s.ref ∧
    (updateClaim seq f s).text = s.text ∧ (updateClaim seq f s).script = s.script ∧ (updateClaim seq f s).timer = s.timer ∧
    (updateClaim seq f s).map = s.map ∧ (updateClaim seq f s).floor = s.floor ∧ (updateClaim seq f s).pacing = s.pacing ∧
    (updateClaim seq f s).item = s.item ∧ (updateClaim seq f s).line = s.line ∧ (updateClaim seq f s).station = s.station ∧
    (updateClaim seq f s).report = s.report ∧ (updateClaim seq f s).openOrders = s.openOrders := by simp [updateClaim]

@[simp] theorem removePlanned_frame (p : Claim → Bool) (s : State) :
    (removePlanned p s).pending = s.pending ∧ (removePlanned p s).straps = s.straps ∧ (removePlanned p s).ref = s.ref ∧
    (removePlanned p s).text = s.text ∧ (removePlanned p s).script = s.script ∧ (removePlanned p s).timer = s.timer ∧
    (removePlanned p s).map = s.map ∧ (removePlanned p s).floor = s.floor ∧ (removePlanned p s).pacing = s.pacing ∧
    (removePlanned p s).station = s.station ∧ (removePlanned p s).report = s.report ∧
    (removePlanned p s).openOrders = s.openOrders := by simp [removePlanned]

@[simp] theorem handBack_frame (p : Claim → Bool) (s : State) :
    (handBack p s).pending = s.pending ∧ (handBack p s).straps = s.straps ∧ (handBack p s).ref = s.ref ∧
    (handBack p s).script = s.script ∧ (handBack p s).map = s.map ∧ (handBack p s).floor = s.floor ∧
    (handBack p s).pacing = s.pacing ∧ (handBack p s).station = s.station ∧ (handBack p s).openOrders = s.openOrders := by simp [handBack]

@[simp] theorem dropPlanned_frame (p : Claim → Bool) (s : State) :
    (dropPlanned p s).pending = s.pending ∧ (dropPlanned p s).straps = s.straps ∧ (dropPlanned p s).ref = s.ref ∧
    (dropPlanned p s).text = s.text ∧ (dropPlanned p s).script = s.script ∧ (dropPlanned p s).timer = s.timer ∧
    (dropPlanned p s).map = s.map ∧ (dropPlanned p s).floor = s.floor ∧ (dropPlanned p s).pacing = s.pacing ∧
    (dropPlanned p s).station = s.station ∧ (dropPlanned p s).openOrders = s.openOrders := by simp [dropPlanned]

@[simp] theorem dropRevision_frame (seq : Byte) (s : State) :
    (dropRevision seq s).pending = s.pending ∧ (dropRevision seq s).straps = s.straps ∧ (dropRevision seq s).ref = s.ref ∧
    (dropRevision seq s).text = s.text ∧ (dropRevision seq s).script = s.script ∧ (dropRevision seq s).timer = s.timer ∧
    (dropRevision seq s).map = s.map ∧ (dropRevision seq s).floor = s.floor ∧ (dropRevision seq s).pacing = s.pacing ∧
    (dropRevision seq s).station = s.station ∧ (dropRevision seq s).report = s.report ∧
    (dropRevision seq s).openOrders = s.openOrders := by simp [dropRevision]

@[simp] theorem lateRevisions_frame (l : List Claim) (s : State) :
    (lateRevisions l s).pending = s.pending ∧ (lateRevisions l s).straps = s.straps ∧ (lateRevisions l s).ref = s.ref ∧
    (lateRevisions l s).text = s.text ∧ (lateRevisions l s).script = s.script ∧ (lateRevisions l s).timer = s.timer ∧
    (lateRevisions l s).map = s.map ∧ (lateRevisions l s).floor = s.floor ∧ (lateRevisions l s).pacing = s.pacing ∧
    (lateRevisions l s).station = s.station ∧ (lateRevisions l s).openOrders = s.openOrders := by
  induction l generalizing s with
  | nil => simp [lateRevisions]
  | cons c cs ih => simp only [lateRevisions, ih]; split <;> simp

@[simp] theorem leaveFloorClaims_frame (s : State) :
    (leaveFloorClaims s).pending = s.pending ∧ (leaveFloorClaims s).straps = s.straps ∧ (leaveFloorClaims s).ref = s.ref ∧
    (leaveFloorClaims s).text = s.text ∧ (leaveFloorClaims s).script = s.script ∧ (leaveFloorClaims s).timer = s.timer ∧
    (leaveFloorClaims s).map = s.map ∧ (leaveFloorClaims s).floor = s.floor ∧ (leaveFloorClaims s).pacing = s.pacing ∧
    (leaveFloorClaims s).station = s.station ∧ (leaveFloorClaims s).openOrders = s.openOrders := by simp [leaveFloorClaims]

@[simp] theorem setFloor_frame (f : FloorState) (s : State) :
    (setFloor f s).pending = s.pending ∧ (setFloor f s).straps = s.straps ∧ (setFloor f s).ref = s.ref ∧
    (setFloor f s).text = s.text ∧ (setFloor f s).script = s.script ∧ (setFloor f s).timer = s.timer ∧
    (setFloor f s).claims = s.claims ∧ (setFloor f s).map = s.map ∧ (setFloor f s).pacing = s.pacing ∧
    (setFloor f s).item = s.item ∧ (setFloor f s).line = s.line ∧ (setFloor f s).station = s.station ∧
    (setFloor f s).report = s.report ∧ (setFloor f s).openOrders = s.openOrders := by simp [setFloor]

@[simp] theorem setHolder_frame (h : Option Nat) (s : State) :
    (setHolder h s).pending = s.pending ∧ (setHolder h s).straps = s.straps ∧ (setHolder h s).ref = s.ref ∧
    (setHolder h s).text = s.text ∧ (setHolder h s).script = s.script ∧ (setHolder h s).timer = s.timer ∧
    (setHolder h s).claims = s.claims ∧ (setHolder h s).map = s.map ∧ (setHolder h s).pacing = s.pacing ∧
    (setHolder h s).item = s.item ∧ (setHolder h s).line = s.line ∧ (setHolder h s).station = s.station ∧
    (setHolder h s).report = s.report ∧ (setHolder h s).openOrders = s.openOrders := by simp [setHolder]

@[simp] theorem setSuccessor_frame (h : Option Nat) (s : State) :
    (setSuccessor h s).pending = s.pending ∧ (setSuccessor h s).straps = s.straps ∧ (setSuccessor h s).ref = s.ref ∧
    (setSuccessor h s).text = s.text ∧ (setSuccessor h s).script = s.script ∧ (setSuccessor h s).timer = s.timer ∧
    (setSuccessor h s).claims = s.claims ∧ (setSuccessor h s).map = s.map ∧ (setSuccessor h s).pacing = s.pacing ∧
    (setSuccessor h s).item = s.item ∧ (setSuccessor h s).line = s.line ∧ (setSuccessor h s).station = s.station ∧
    (setSuccessor h s).report = s.report ∧ (setSuccessor h s).openOrders = s.openOrders := by simp [setSuccessor]

@[simp] theorem endBid_frame (s : State) :
    (endBid s).pending = s.pending ∧ (endBid s).straps = s.straps ∧ (endBid s).ref = s.ref ∧ (endBid s).text = s.text ∧
    (endBid s).script = s.script ∧ (endBid s).timer = s.timer ∧ (endBid s).claims = s.claims ∧ (endBid s).map = s.map ∧
    (endBid s).pacing = s.pacing ∧ (endBid s).station = s.station ∧ (endBid s).report = s.report ∧
    (endBid s).openOrders = s.openOrders := by simp [endBid]

@[simp] theorem loseBid_frame (s : State) :
    (loseBid s).pending = s.pending ∧ (loseBid s).straps = s.straps ∧ (loseBid s).ref = s.ref ∧ (loseBid s).text = s.text ∧
    (loseBid s).script = s.script ∧ (loseBid s).timer = s.timer ∧ (loseBid s).claims = s.claims ∧ (loseBid s).map = s.map ∧
    (loseBid s).pacing = s.pacing ∧ (loseBid s).station = s.station ∧ (loseBid s).openOrders = s.openOrders := by simp [loseBid]

@[simp] theorem enterYielding_frame (s : State) :
    (enterYielding s).pending = s.pending ∧ (enterYielding s).straps = s.straps ∧ (enterYielding s).ref = s.ref ∧
    (enterYielding s).text = s.text ∧ (enterYielding s).script = s.script ∧ (enterYielding s).timer = s.timer ∧
    (enterYielding s).claims = s.claims ∧ (enterYielding s).map = s.map ∧ (enterYielding s).pacing = s.pacing ∧
    (enterYielding s).item = s.item ∧ (enterYielding s).line = s.line ∧ (enterYielding s).station = s.station ∧
    (enterYielding s).report = s.report ∧ (enterYielding s).openOrders = s.openOrders := by simp [enterYielding]

@[simp] theorem becomeLive_frame (s : State) :
    (becomeLive s).pending = s.pending ∧ (becomeLive s).straps = s.straps ∧ (becomeLive s).ref = s.ref ∧
    (becomeLive s).text = s.text ∧ (becomeLive s).script = s.script ∧ (becomeLive s).claims = s.claims ∧
    (becomeLive s).map = s.map ∧ (becomeLive s).pacing = s.pacing ∧ (becomeLive s).station = s.station ∧
    (becomeLive s).report = s.report ∧ (becomeLive s).openOrders = s.openOrders := by
  unfold becomeLive; dsimp only; split <;> simp

@[simp] theorem holdFloor_frame (s : State) :
    (holdFloor s).pending = s.pending ∧ (holdFloor s).straps = s.straps ∧ (holdFloor s).ref = s.ref ∧
    (holdFloor s).text = s.text ∧ (holdFloor s).script = s.script ∧ (holdFloor s).claims = s.claims ∧
    (holdFloor s).map = s.map ∧ (holdFloor s).pacing = s.pacing ∧ (holdFloor s).station = s.station ∧
    (holdFloor s).report = s.report ∧ (holdFloor s).openOrders = s.openOrders := by
  simp only [holdFloor]; (repeat' split) <;> simp

@[simp] theorem leaveFloor_frame (s : State) :
    (leaveFloor s).pending = s.pending ∧ (leaveFloor s).straps = s.straps ∧ (leaveFloor s).ref = s.ref ∧
    (leaveFloor s).text = s.text ∧ (leaveFloor s).script = s.script ∧ (leaveFloor s).timer = s.timer ∧
    (leaveFloor s).map = s.map ∧ (leaveFloor s).pacing = s.pacing ∧ (leaveFloor s).station = s.station ∧
    (leaveFloor s).openOrders = s.openOrders := by simp [leaveFloor]

@[simp] theorem reviseGivenUp_frame (seq : Byte) (s : State) :
    (reviseGivenUp seq s).pending = s.pending ∧ (reviseGivenUp seq s).straps = s.straps ∧ (reviseGivenUp seq s).ref = s.ref ∧
    (reviseGivenUp seq s).text = s.text ∧ (reviseGivenUp seq s).script = s.script ∧ (reviseGivenUp seq s).timer = s.timer ∧
    (reviseGivenUp seq s).map = s.map ∧ (reviseGivenUp seq s).floor = s.floor ∧ (reviseGivenUp seq s).pacing = s.pacing ∧
    (reviseGivenUp seq s).item = s.item ∧ (reviseGivenUp seq s).station = s.station ∧
    (reviseGivenUp seq s).openOrders = s.openOrders := by
  simp only [reviseGivenUp]; (repeat' split) <;> simp

@[simp] theorem cutGivenUp_frame (seq : Byte) (s : State) :
    (cutGivenUp seq s).pending = s.pending ∧ (cutGivenUp seq s).straps = s.straps ∧ (cutGivenUp seq s).ref = s.ref ∧
    (cutGivenUp seq s).text = s.text ∧ (cutGivenUp seq s).script = s.script ∧ (cutGivenUp seq s).timer = s.timer ∧
    (cutGivenUp seq s).map = s.map ∧ (cutGivenUp seq s).floor = s.floor ∧ (cutGivenUp seq s).pacing = s.pacing ∧
    (cutGivenUp seq s).item = s.item ∧ (cutGivenUp seq s).line = s.line ∧ (cutGivenUp seq s).station = s.station ∧
    (cutGivenUp seq s).openOrders = s.openOrders := by
  simp only [cutGivenUp]; (repeat' split) <;> simp

@[simp] theorem queueYield_frame (s : State) :
    (queueYield s).pending = s.pending ∧ (queueYield s).straps = s.straps ∧ (queueYield s).ref = s.ref ∧
    (queueYield s).text = s.text ∧ (queueYield s).script = s.script ∧ (queueYield s).timer = s.timer ∧
    (queueYield s).claims = s.claims ∧ (queueYield s).map = s.map ∧ (queueYield s).floor = s.floor ∧
    (queueYield s).pacing = s.pacing ∧ (queueYield s).item = s.item ∧ (queueYield s).station = s.station ∧
    (queueYield s).report = s.report ∧ (queueYield s).openOrders = s.openOrders := by
  unfold queueYield; split <;> simp

@[simp] theorem ownerGivesUp_frame (k : PacketKind) (s : State) :
    (ownerGivesUp k s).pending = s.pending ∧ (ownerGivesUp k s).straps = s.straps ∧ (ownerGivesUp k s).ref = s.ref ∧
    (ownerGivesUp k s).script = s.script ∧ (ownerGivesUp k s).map = s.map ∧ (ownerGivesUp k s).pacing = s.pacing ∧
    (ownerGivesUp k s).station = s.station ∧ (ownerGivesUp k s).openOrders = s.openOrders := by
  simp only [ownerGivesUp]; (repeat' split) <;> simp

@[simp] theorem giveUp_frame (k : PacketKind) (s : State) :
    (giveUp k s).pending = s.pending ∧ (giveUp k s).straps = s.straps ∧ (giveUp k s).ref = s.ref ∧
    (giveUp k s).script = s.script ∧ (giveUp k s).map = s.map ∧ (giveUp k s).pacing = s.pacing ∧
    (giveUp k s).station = s.station ∧ (giveUp k s).openOrders = s.openOrders := by simp [giveUp]

@[simp] theorem removeAt_frame (i : Nat) (s : State) :
    (removeAt i s).pending = s.pending ∧ (removeAt i s).straps = s.straps ∧ (removeAt i s).ref = s.ref ∧
    (removeAt i s).text = s.text ∧ (removeAt i s).script = s.script ∧ (removeAt i s).timer = s.timer ∧
    (removeAt i s).claims = s.claims ∧ (removeAt i s).map = s.map ∧ (removeAt i s).floor = s.floor ∧
    (removeAt i s).pacing = s.pacing ∧ (removeAt i s).item = s.item ∧ (removeAt i s).station = s.station ∧
    (removeAt i s).report = s.report ∧ (removeAt i s).openOrders = s.openOrders := by simp [removeAt]

@[simp] theorem displaceAt_frame (i : Nat) (s : State) :
    (displaceAt i s).pending = s.pending ∧ (displaceAt i s).straps = s.straps ∧ (displaceAt i s).ref = s.ref ∧
    (displaceAt i s).script = s.script ∧ (displaceAt i s).map = s.map ∧ (displaceAt i s).pacing = s.pacing ∧
    (displaceAt i s).station = s.station ∧ (displaceAt i s).openOrders = s.openOrders := by
  unfold displaceAt; split <;> simp

@[simp] theorem makeCutRoom_frame (s : State) :
    (makeCutRoom s).pending = s.pending ∧ (makeCutRoom s).straps = s.straps ∧ (makeCutRoom s).ref = s.ref ∧
    (makeCutRoom s).script = s.script ∧ (makeCutRoom s).map = s.map ∧ (makeCutRoom s).pacing = s.pacing ∧
    (makeCutRoom s).station = s.station ∧ (makeCutRoom s).openOrders = s.openOrders := by
  simp only [makeCutRoom]; (repeat' split) <;> simp

@[simp] theorem queueCut_frame (seq : Byte) (off : Frame) (mark : ResetMark) (s : State) :
    (queueCut seq off mark s).pending = s.pending ∧ (queueCut seq off mark s).straps = s.straps ∧
    (queueCut seq off mark s).ref = s.ref ∧ (queueCut seq off mark s).script = s.script ∧
    (queueCut seq off mark s).map = s.map ∧ (queueCut seq off mark s).pacing = s.pacing ∧
    (queueCut seq off mark s).station = s.station ∧ (queueCut seq off mark s).openOrders = s.openOrders := by
  unfold queueCut; split <;> simp

@[simp] theorem withdraw_frame (seq : Byte) (off : Frame) (mark : ResetMark) (s : State) :
    (withdraw seq off mark s).pending = s.pending ∧ (withdraw seq off mark s).straps = s.straps ∧
    (withdraw seq off mark s).ref = s.ref ∧ (withdraw seq off mark s).script = s.script ∧
    (withdraw seq off mark s).map = s.map ∧ (withdraw seq off mark s).pacing = s.pacing ∧
    (withdraw seq off mark s).station = s.station ∧ (withdraw seq off mark s).openOrders = s.openOrders := by simp [withdraw]

@[simp] theorem endClaim_frame (seq : Byte) (s : State) :
    (endClaim seq s).pending = s.pending ∧ (endClaim seq s).straps = s.straps ∧ (endClaim seq s).ref = s.ref ∧
    (endClaim seq s).text = s.text ∧ (endClaim seq s).script = s.script ∧ (endClaim seq s).timer = s.timer ∧
    (endClaim seq s).map = s.map ∧ (endClaim seq s).floor = s.floor ∧ (endClaim seq s).pacing = s.pacing ∧
    (endClaim seq s).station = s.station ∧ (endClaim seq s).openOrders = s.openOrders := by
  unfold endClaim; split <;> simp

@[simp] theorem conflictLoss_frame (seq : Byte) (s : State) :
    (conflictLoss seq s).pending = s.pending ∧ (conflictLoss seq s).straps = s.straps ∧ (conflictLoss seq s).ref = s.ref ∧
    (conflictLoss seq s).script = s.script ∧ (conflictLoss seq s).map = s.map ∧ (conflictLoss seq s).pacing = s.pacing ∧
    (conflictLoss seq s).station = s.station ∧ (conflictLoss seq s).openOrders = s.openOrders := by
  simp only [conflictLoss]; (repeat' split) <;> simp

@[simp] theorem cueGone_frame (why : MapEnd) (c : Cue) (s : State) :
    (cueGone why c s).pending = s.pending ∧ (cueGone why c s).straps = s.straps ∧ (cueGone why c s).ref = s.ref ∧
    (cueGone why c s).script = s.script ∧ (cueGone why c s).map = s.map ∧ (cueGone why c s).pacing = s.pacing ∧
    (cueGone why c s).station = s.station ∧ (cueGone why c s).openOrders = s.openOrders := by
  simp only [cueGone]; (repeat' split) <;> simp

@[simp] theorem cuesGone_frame (why : MapEnd) (l : List Cue) (s : State) :
    (cuesGone why l s).pending = s.pending ∧ (cuesGone why l s).straps = s.straps ∧ (cuesGone why l s).ref = s.ref ∧
    (cuesGone why l s).script = s.script ∧ (cuesGone why l s).map = s.map ∧ (cuesGone why l s).pacing = s.pacing ∧
    (cuesGone why l s).station = s.station ∧ (cuesGone why l s).openOrders = s.openOrders := by
  induction l generalizing s with
  | nil => simp [cuesGone]
  | cons c cs ih => simp [cuesGone, ih]

end Sys2Proof.Machine
end

