-- ==== Sys2Proof/Laws/FrameMap.lean ====
section
/-! SUPPORT. What the operations of the Row Map leave unchanged: every unit of the state that the equations name. -/

namespace Sys2Proof.Machine

@[simp] theorem makeRowRoom_frame (inHand : Cue → Bool) (row : Nat) (s : State) :
    (makeRowRoom inHand row s).pending = s.pending ∧ (makeRowRoom inHand row s).straps = s.straps ∧
    (makeRowRoom inHand row s).ref = s.ref ∧ (makeRowRoom inHand row s).script = s.script ∧
    (makeRowRoom inHand row s).pacing = s.pacing ∧ (makeRowRoom inHand row s).station = s.station ∧
    (makeRowRoom inHand row s).openOrders = s.openOrders := by
  simp only [makeRowRoom]; (repeat' split) <;> simp

@[simp] theorem makeEntries_frame (inHand : Cue → Bool) (c : Cue) (s : State) :
    (makeEntries inHand c s).pending = s.pending ∧ (makeEntries inHand c s).straps = s.straps ∧
    (makeEntries inHand c s).ref = s.ref ∧ (makeEntries inHand c s).script = s.script ∧
    (makeEntries inHand c s).pacing = s.pacing ∧ (makeEntries inHand c s).station = s.station ∧
    (makeEntries inHand c s).openOrders = s.openOrders := by
  unfold makeEntries; split <;> simp

@[simp] theorem conflictTest_frame (c : Cue) (s : State) :
    (conflictTest c s).pending = s.pending ∧ (conflictTest c s).straps = s.straps ∧ (conflictTest c s).ref = s.ref ∧
    (conflictTest c s).script = s.script ∧ (conflictTest c s).pacing = s.pacing ∧ (conflictTest c s).station = s.station ∧
    (conflictTest c s).openOrders = s.openOrders := by
  unfold conflictTest; dsimp only; split <;> simp

@[simp] theorem boundNeighbours_frame (c : Cue) (s : State) :
    (boundNeighbours c s).pending = s.pending ∧ (boundNeighbours c s).straps = s.straps ∧ (boundNeighbours c s).ref = s.ref ∧
    (boundNeighbours c s).text = s.text ∧ (boundNeighbours c s).script = s.script ∧ (boundNeighbours c s).timer = s.timer ∧
    (boundNeighbours c s).claims = s.claims ∧ (boundNeighbours c s).floor = s.floor ∧ (boundNeighbours c s).pacing = s.pacing ∧
    (boundNeighbours c s).item = s.item ∧ (boundNeighbours c s).line = s.line ∧ (boundNeighbours c s).station = s.station ∧
    (boundNeighbours c s).report = s.report ∧ (boundNeighbours c s).openOrders = s.openOrders := by
  unfold boundNeighbours; split <;> simp

@[simp] theorem expireCues_frame (s : State) :
    (expireCues s).pending = s.pending ∧ (expireCues s).straps = s.straps ∧ (expireCues s).ref = s.ref ∧
    (expireCues s).script = s.script ∧ (expireCues s).pacing = s.pacing ∧ (expireCues s).station = s.station ∧
    (expireCues s).openOrders = s.openOrders := by simp [expireCues]

@[simp] theorem mapCue_frame (sender : Nat) (b : CueBody) (s : State) :
    (mapCue sender b s).pending = s.pending ∧ (mapCue sender b s).straps = s.straps ∧ (mapCue sender b s).ref = s.ref ∧
    (mapCue sender b s).script = s.script ∧ (mapCue sender b s).pacing = s.pacing ∧ (mapCue sender b s).station = s.station ∧
    (mapCue sender b s).openOrders = s.openOrders := by simp [mapCue]

@[simp] theorem mapRevise_frame (sender : Nat) (b : CueBody) (s : State) :
    (mapRevise sender b s).pending = s.pending ∧ (mapRevise sender b s).straps = s.straps ∧
    (mapRevise sender b s).ref = s.ref ∧ (mapRevise sender b s).script = s.script ∧ (mapRevise sender b s).pacing = s.pacing ∧
    (mapRevise sender b s).station = s.station ∧ (mapRevise sender b s).openOrders = s.openOrders := by
  unfold mapRevise; split <;> simp

@[simp] theorem makeAllEntries_frame (inHand : Cue → Bool) (l : List Cue) (s : State) :
    (makeAllEntries inHand l s).pending = s.pending ∧ (makeAllEntries inHand l s).straps = s.straps ∧
    (makeAllEntries inHand l s).ref = s.ref ∧ (makeAllEntries inHand l s).script = s.script ∧
    (makeAllEntries inHand l s).pacing = s.pacing ∧ (makeAllEntries inHand l s).station = s.station ∧
    (makeAllEntries inHand l s).openOrders = s.openOrders := by
  induction l generalizing s with
  | nil => simp [makeAllEntries]
  | cons c cs ih => simp [makeAllEntries, ih]

@[simp] theorem testAll_frame (l : List Cue) (s : State) :
    (testAll l s).pending = s.pending ∧ (testAll l s).straps = s.straps ∧ (testAll l s).ref = s.ref ∧
    (testAll l s).script = s.script ∧ (testAll l s).pacing = s.pacing ∧ (testAll l s).station = s.station ∧
    (testAll l s).openOrders = s.openOrders := by
  induction l generalizing s with
  | nil => simp [testAll]
  | cons c cs ih => simp only [testAll, ih]; split <;> simp

@[simp] theorem boundAll_frame (l : List Cue) (s : State) :
    (boundAll l s).pending = s.pending ∧ (boundAll l s).straps = s.straps ∧ (boundAll l s).ref = s.ref ∧
    (boundAll l s).text = s.text ∧ (boundAll l s).script = s.script ∧ (boundAll l s).timer = s.timer ∧
    (boundAll l s).claims = s.claims ∧ (boundAll l s).floor = s.floor ∧ (boundAll l s).pacing = s.pacing ∧
    (boundAll l s).item = s.item ∧ (boundAll l s).line = s.line ∧ (boundAll l s).station = s.station ∧
    (boundAll l s).report = s.report ∧ (boundAll l s).openOrders = s.openOrders := by
  induction l generalizing s with
  | nil => simp [boundAll]
  | cons c cs ih => simp [boundAll, ih]

@[simp] theorem mapState_frame (sender : Nat) (l : List StateClaim) (s : State) :
    (mapState sender l s).pending = s.pending ∧ (mapState sender l s).straps = s.straps ∧ (mapState sender l s).ref = s.ref ∧
    (mapState sender l s).script = s.script ∧ (mapState sender l s).pacing = s.pacing ∧
    (mapState sender l s).station = s.station ∧ (mapState sender l s).openOrders = s.openOrders := by simp [mapState]

@[simp] theorem mapCut_frame (sender : Nat) (seq : Byte) (off : Frame) (s : State) :
    (mapCut sender seq off s).pending = s.pending ∧ (mapCut sender seq off s).straps = s.straps ∧
    (mapCut sender seq off s).ref = s.ref ∧ (mapCut sender seq off s).script = s.script ∧
    (mapCut sender seq off s).pacing = s.pacing ∧ (mapCut sender seq off s).station = s.station ∧
    (mapCut sender seq off s).openOrders = s.openOrders := by
  simp only [mapCut]; (repeat' split) <;> simp

@[simp] theorem itemCut_frame (b : Frame) (s : State) :
    (itemCut b s).pending = s.pending ∧ (itemCut b s).straps = s.straps ∧ (itemCut b s).ref = s.ref ∧
    (itemCut b s).text = s.text ∧ (itemCut b s).script = s.script ∧ (itemCut b s).timer = s.timer ∧
    (itemCut b s).claims = s.claims ∧ (itemCut b s).floor = s.floor ∧ (itemCut b s).pacing = s.pacing ∧
    (itemCut b s).item = s.item ∧ (itemCut b s).line = s.line ∧ (itemCut b s).station = s.station ∧
    (itemCut b s).report = s.report ∧ (itemCut b s).openOrders = s.openOrders := by simp [itemCut]

@[simp] theorem overtakenTest_frame (s : State) :
    (overtakenTest s).pending = s.pending ∧ (overtakenTest s).straps = s.straps ∧ (overtakenTest s).ref = s.ref ∧
    (overtakenTest s).script = s.script ∧ (overtakenTest s).map = s.map ∧ (overtakenTest s).floor = s.floor ∧
    (overtakenTest s).pacing = s.pacing ∧ (overtakenTest s).station = s.station ∧ (overtakenTest s).openOrders = s.openOrders := by simp [overtakenTest]

@[simp] theorem showAndExpire_frame (step : Bool) (s : State) :
    (showAndExpire step s).pending = s.pending ∧ (showAndExpire step s).straps = s.straps ∧
    (showAndExpire step s).ref = s.ref ∧ (showAndExpire step s).script = s.script ∧ (showAndExpire step s).pacing = s.pacing ∧
    (showAndExpire step s).station = s.station := by simp [showAndExpire]

@[simp] theorem staleWaiting_frame (s : State) :
    (staleWaiting s).pending = s.pending ∧ (staleWaiting s).straps = s.straps ∧ (staleWaiting s).ref = s.ref ∧
    (staleWaiting s).script = s.script ∧ (staleWaiting s).map = s.map ∧ (staleWaiting s).floor = s.floor ∧
    (staleWaiting s).pacing = s.pacing ∧ (staleWaiting s).station = s.station ∧ (staleWaiting s).openOrders = s.openOrders := by simp [staleWaiting]

end Sys2Proof.Machine
end

