-- ==== Sys2Proof/Laws/FrameText.lean ====
section
/-! SUPPORT. What the operations of the Block Builder and the Script Store leave unchanged: every unit of the state that the equations name. -/

namespace Sys2Proof.Machine

@[simp] theorem closeBlock_frame (cause : CloseCause) (s : State) :
    (closeBlock cause s).pending = s.pending ∧ (closeBlock cause s).straps = s.straps ∧ (closeBlock cause s).ref = s.ref ∧
    (closeBlock cause s).script = s.script ∧ (closeBlock cause s).claims = s.claims ∧ (closeBlock cause s).map = s.map ∧
    (closeBlock cause s).floor = s.floor ∧ (closeBlock cause s).pacing = s.pacing ∧ (closeBlock cause s).item = s.item ∧
    (closeBlock cause s).line = s.line ∧ (closeBlock cause s).station = s.station ∧
    (closeBlock cause s).openOrders = s.openOrders := by simp [closeBlock]

@[simp] theorem openBlock_frame (w : TextWord) (arrival : Frame) (s : State) :
    (openBlock w arrival s).pending = s.pending ∧ (openBlock w arrival s).straps = s.straps ∧
    (openBlock w arrival s).ref = s.ref ∧ (openBlock w arrival s).script = s.script ∧ (openBlock w arrival s).timer = s.timer ∧
    (openBlock w arrival s).claims = s.claims ∧ (openBlock w arrival s).map = s.map ∧ (openBlock w arrival s).floor = s.floor ∧
    (openBlock w arrival s).pacing = s.pacing ∧ (openBlock w arrival s).item = s.item ∧ (openBlock w arrival s).line = s.line ∧
    (openBlock w arrival s).station = s.station ∧ (openBlock w arrival s).report = s.report ∧
    (openBlock w arrival s).openOrders = s.openOrders := by simp [openBlock]

@[simp] theorem placeWord_frame (w : TextWord) (arrival : Frame) (s : State) :
    (placeWord w arrival s).pending = s.pending ∧ (placeWord w arrival s).straps = s.straps ∧
    (placeWord w arrival s).ref = s.ref ∧ (placeWord w arrival s).script = s.script ∧
    (placeWord w arrival s).claims = s.claims ∧ (placeWord w arrival s).map = s.map ∧ (placeWord w arrival s).floor = s.floor ∧
    (placeWord w arrival s).pacing = s.pacing ∧ (placeWord w arrival s).item = s.item ∧ (placeWord w arrival s).line = s.line ∧
    (placeWord w arrival s).station = s.station ∧ (placeWord w arrival s).openOrders = s.openOrders := by
  simp only [placeWord]; (repeat' split) <;> simp

@[simp] theorem completeWord_frame (s : State) :
    (completeWord s).pending = s.pending ∧ (completeWord s).straps = s.straps ∧ (completeWord s).ref = s.ref ∧
    (completeWord s).script = s.script ∧ (completeWord s).claims = s.claims ∧ (completeWord s).map = s.map ∧
    (completeWord s).floor = s.floor ∧ (completeWord s).pacing = s.pacing ∧ (completeWord s).item = s.item ∧
    (completeWord s).line = s.line ∧ (completeWord s).station = s.station ∧ (completeWord s).openOrders = s.openOrders := by
  unfold completeWord; split <;> simp

@[simp] theorem completeAndTest_frame (s : State) :
    (completeAndTest s).pending = s.pending ∧ (completeAndTest s).straps = s.straps ∧ (completeAndTest s).ref = s.ref ∧
    (completeAndTest s).script = s.script ∧ (completeAndTest s).claims = s.claims ∧ (completeAndTest s).map = s.map ∧
    (completeAndTest s).floor = s.floor ∧ (completeAndTest s).pacing = s.pacing ∧ (completeAndTest s).item = s.item ∧
    (completeAndTest s).line = s.line ∧ (completeAndTest s).station = s.station ∧ (completeAndTest s).openOrders = s.openOrders := by
  simp only [completeAndTest]; (repeat' split) <;> simp

@[simp] theorem closeOpen_frame (cause : CloseCause) (s : State) :
    (closeOpen cause s).pending = s.pending ∧ (closeOpen cause s).straps = s.straps ∧ (closeOpen cause s).ref = s.ref ∧
    (closeOpen cause s).script = s.script ∧ (closeOpen cause s).claims = s.claims ∧ (closeOpen cause s).map = s.map ∧
    (closeOpen cause s).floor = s.floor ∧ (closeOpen cause s).pacing = s.pacing ∧ (closeOpen cause s).item = s.item ∧
    (closeOpen cause s).line = s.line ∧ (closeOpen cause s).station = s.station ∧ (closeOpen cause s).openOrders = s.openOrders := by
  unfold closeOpen; dsimp only; split <;> simp

@[simp] theorem restartIdle_frame (s : State) :
    (restartIdle s).pending = s.pending ∧ (restartIdle s).straps = s.straps ∧ (restartIdle s).ref = s.ref ∧
    (restartIdle s).script = s.script ∧ (restartIdle s).timer = s.timer ∧ (restartIdle s).claims = s.claims ∧
    (restartIdle s).map = s.map ∧ (restartIdle s).floor = s.floor ∧ (restartIdle s).pacing = s.pacing ∧
    (restartIdle s).item = s.item ∧ (restartIdle s).line = s.line ∧ (restartIdle s).station = s.station ∧
    (restartIdle s).report = s.report ∧ (restartIdle s).openOrders = s.openOrders := by simp [restartIdle]

@[simp] theorem addCharacter_frame (c : Byte) (s : State) :
    (addCharacter c s).pending = s.pending ∧ (addCharacter c s).straps = s.straps ∧ (addCharacter c s).ref = s.ref ∧
    (addCharacter c s).script = s.script ∧ (addCharacter c s).timer = s.timer ∧ (addCharacter c s).claims = s.claims ∧
    (addCharacter c s).map = s.map ∧ (addCharacter c s).floor = s.floor ∧ (addCharacter c s).pacing = s.pacing ∧
    (addCharacter c s).item = s.item ∧ (addCharacter c s).line = s.line ∧ (addCharacter c s).station = s.station ∧
    (addCharacter c s).report = s.report ∧ (addCharacter c s).openOrders = s.openOrders := by
  unfold addCharacter; split <;> simp

@[simp] theorem builderCharacter_frame (c : Byte) (s : State) :
    (builderCharacter c s).pending = s.pending ∧ (builderCharacter c s).straps = s.straps ∧
    (builderCharacter c s).ref = s.ref ∧ (builderCharacter c s).script = s.script ∧ (builderCharacter c s).claims = s.claims ∧
    (builderCharacter c s).map = s.map ∧ (builderCharacter c s).floor = s.floor ∧ (builderCharacter c s).pacing = s.pacing ∧
    (builderCharacter c s).item = s.item ∧ (builderCharacter c s).line = s.line ∧ (builderCharacter c s).station = s.station ∧
    (builderCharacter c s).openOrders = s.openOrders := by
  simp only [builderCharacter]; (repeat' split) <;> simp

@[simp] theorem idleCloseAct_frame (s : State) :
    (idleCloseAct s).pending = s.pending ∧ (idleCloseAct s).straps = s.straps ∧ (idleCloseAct s).ref = s.ref ∧
    (idleCloseAct s).script = s.script ∧ (idleCloseAct s).claims = s.claims ∧ (idleCloseAct s).map = s.map ∧
    (idleCloseAct s).floor = s.floor ∧ (idleCloseAct s).pacing = s.pacing ∧ (idleCloseAct s).item = s.item ∧
    (idleCloseAct s).line = s.line ∧ (idleCloseAct s).station = s.station ∧ (idleCloseAct s).openOrders = s.openOrders := by
  unfold idleCloseAct; split <;> simp

@[simp] theorem ageQueue_frame (s : State) :
    (ageQueue s).pending = s.pending ∧ (ageQueue s).straps = s.straps ∧ (ageQueue s).ref = s.ref ∧
    (ageQueue s).script = s.script ∧ (ageQueue s).claims = s.claims ∧ (ageQueue s).map = s.map ∧ (ageQueue s).floor = s.floor ∧
    (ageQueue s).pacing = s.pacing ∧ (ageQueue s).item = s.item ∧ (ageQueue s).line = s.line ∧
    (ageQueue s).station = s.station ∧ (ageQueue s).openOrders = s.openOrders := by
  unfold ageQueue; dsimp only; split <;> simp

@[simp] theorem yieldDiscard_frame (s : State) :
    (yieldDiscard s).pending = s.pending ∧ (yieldDiscard s).straps = s.straps ∧ (yieldDiscard s).ref = s.ref ∧
    (yieldDiscard s).script = s.script ∧ (yieldDiscard s).claims = s.claims ∧ (yieldDiscard s).map = s.map ∧
    (yieldDiscard s).floor = s.floor ∧ (yieldDiscard s).pacing = s.pacing ∧ (yieldDiscard s).item = s.item ∧
    (yieldDiscard s).line = s.line ∧ (yieldDiscard s).station = s.station ∧ (yieldDiscard s).openOrders = s.openOrders := by simp [yieldDiscard]

@[simp] theorem composeRetract_frame (s : State) :
    (composeRetract s).pending = s.pending ∧ (composeRetract s).straps = s.straps ∧ (composeRetract s).ref = s.ref ∧
    (composeRetract s).script = s.script ∧ (composeRetract s).timer = s.timer ∧ (composeRetract s).claims = s.claims ∧
    (composeRetract s).map = s.map ∧ (composeRetract s).floor = s.floor ∧ (composeRetract s).pacing = s.pacing ∧
    (composeRetract s).item = s.item ∧ (composeRetract s).line = s.line ∧ (composeRetract s).station = s.station ∧
    (composeRetract s).report = s.report ∧ (composeRetract s).openOrders = s.openOrders := by
  simp only [composeRetract]; (repeat' split) <;> simp

@[simp] theorem queueRetract_frame (s : State) :
    (queueRetract s).pending = s.pending ∧ (queueRetract s).straps = s.straps ∧ (queueRetract s).ref = s.ref ∧
    (queueRetract s).script = s.script ∧ (queueRetract s).claims = s.claims ∧ (queueRetract s).map = s.map ∧
    (queueRetract s).floor = s.floor ∧ (queueRetract s).pacing = s.pacing ∧ (queueRetract s).item = s.item ∧
    (queueRetract s).line = s.line ∧ (queueRetract s).station = s.station ∧ (queueRetract s).openOrders = s.openOrders := by
  simp only [queueRetract]; (repeat' split) <;> simp

@[simp] theorem removeOnePlanned_frame (seq : Byte) (s : State) :
    (removeOnePlanned seq s).pending = s.pending ∧ (removeOnePlanned seq s).straps = s.straps ∧
    (removeOnePlanned seq s).ref = s.ref ∧ (removeOnePlanned seq s).text = s.text ∧
    (removeOnePlanned seq s).script = s.script ∧ (removeOnePlanned seq s).timer = s.timer ∧
    (removeOnePlanned seq s).map = s.map ∧ (removeOnePlanned seq s).floor = s.floor ∧
    (removeOnePlanned seq s).pacing = s.pacing ∧ (removeOnePlanned seq s).station = s.station ∧
    (removeOnePlanned seq s).report = s.report ∧ (removeOnePlanned seq s).openOrders = s.openOrders := by simp [removeOnePlanned]

@[simp] theorem editPlanned_frame (c : Claim) (s : State) :
    (editPlanned c s).pending = s.pending ∧ (editPlanned c s).straps = s.straps ∧ (editPlanned c s).ref = s.ref ∧
    (editPlanned c s).text = s.text ∧ (editPlanned c s).script = s.script ∧ (editPlanned c s).timer = s.timer ∧
    (editPlanned c s).map = s.map ∧ (editPlanned c s).floor = s.floor ∧ (editPlanned c s).pacing = s.pacing ∧
    (editPlanned c s).station = s.station ∧ (editPlanned c s).openOrders = s.openOrders := by
  unfold editPlanned; dsimp only; split <;> simp

@[simp] theorem reviseClaim_frame (c : Claim) (s : State) :
    (reviseClaim c s).pending = s.pending ∧ (reviseClaim c s).straps = s.straps ∧ (reviseClaim c s).ref = s.ref ∧
    (reviseClaim c s).script = s.script ∧ (reviseClaim c s).map = s.map ∧ (reviseClaim c s).pacing = s.pacing ∧
    (reviseClaim c s).station = s.station ∧ (reviseClaim c s).openOrders = s.openOrders := by
  simp only [reviseClaim]; (repeat' split) <;> simp

@[simp] theorem claimRetract_frame (s : State) :
    (claimRetract s).pending = s.pending ∧ (claimRetract s).straps = s.straps ∧ (claimRetract s).ref = s.ref ∧
    (claimRetract s).script = s.script ∧ (claimRetract s).map = s.map ∧ (claimRetract s).pacing = s.pacing ∧
    (claimRetract s).station = s.station ∧ (claimRetract s).openOrders = s.openOrders := by
  simp only [claimRetract]; (repeat' split) <;> simp

@[simp] theorem liveRetract_frame (s : State) :
    (liveRetract s).pending = s.pending ∧ (liveRetract s).straps = s.straps ∧ (liveRetract s).ref = s.ref ∧
    (liveRetract s).script = s.script ∧ (liveRetract s).map = s.map ∧ (liveRetract s).pacing = s.pacing ∧
    (liveRetract s).station = s.station ∧ (liveRetract s).openOrders = s.openOrders := by
  simp only [liveRetract]; (repeat' split) <;> simp

@[simp] theorem completeLoading_frame (s : State) :
    (completeLoading s).pending = s.pending ∧ (completeLoading s).straps = s.straps ∧ (completeLoading s).ref = s.ref ∧
    (completeLoading s).text = s.text ∧ (completeLoading s).timer = s.timer ∧ (completeLoading s).claims = s.claims ∧
    (completeLoading s).map = s.map ∧ (completeLoading s).floor = s.floor ∧ (completeLoading s).pacing = s.pacing ∧
    (completeLoading s).item = s.item ∧ (completeLoading s).line = s.line ∧ (completeLoading s).station = s.station ∧
    (completeLoading s).openOrders = s.openOrders := by
  simp only [completeLoading]; (repeat' split) <;> simp

@[simp] theorem addLoading_frame (c : Byte) (s : State) :
    (addLoading c s).pending = s.pending ∧ (addLoading c s).straps = s.straps ∧ (addLoading c s).ref = s.ref ∧
    (addLoading c s).text = s.text ∧ (addLoading c s).timer = s.timer ∧ (addLoading c s).claims = s.claims ∧
    (addLoading c s).map = s.map ∧ (addLoading c s).floor = s.floor ∧ (addLoading c s).pacing = s.pacing ∧
    (addLoading c s).item = s.item ∧ (addLoading c s).line = s.line ∧ (addLoading c s).station = s.station ∧
    (addLoading c s).report = s.report ∧ (addLoading c s).openOrders = s.openOrders := by
  unfold addLoading; split <;> simp

@[simp] theorem storeCharacter_frame (c : Byte) (s : State) :
    (storeCharacter c s).pending = s.pending ∧ (storeCharacter c s).straps = s.straps ∧ (storeCharacter c s).ref = s.ref ∧
    (storeCharacter c s).text = s.text ∧ (storeCharacter c s).timer = s.timer ∧ (storeCharacter c s).claims = s.claims ∧
    (storeCharacter c s).map = s.map ∧ (storeCharacter c s).floor = s.floor ∧ (storeCharacter c s).pacing = s.pacing ∧
    (storeCharacter c s).item = s.item ∧ (storeCharacter c s).line = s.line ∧ (storeCharacter c s).station = s.station ∧
    (storeCharacter c s).openOrders = s.openOrders := by
  simp only [storeCharacter]; (repeat' split) <;> simp

@[simp] theorem storeEndBlock_frame (s : State) :
    (storeEndBlock s).pending = s.pending ∧ (storeEndBlock s).straps = s.straps ∧ (storeEndBlock s).ref = s.ref ∧
    (storeEndBlock s).text = s.text ∧ (storeEndBlock s).timer = s.timer ∧ (storeEndBlock s).claims = s.claims ∧
    (storeEndBlock s).map = s.map ∧ (storeEndBlock s).floor = s.floor ∧ (storeEndBlock s).pacing = s.pacing ∧
    (storeEndBlock s).item = s.item ∧ (storeEndBlock s).line = s.line ∧ (storeEndBlock s).station = s.station ∧
    (storeEndBlock s).openOrders = s.openOrders := by
  unfold storeEndBlock; split <;> simp

@[simp] theorem storeSpeaker_frame (s : State) :
    (storeSpeaker s).pending = s.pending ∧ (storeSpeaker s).straps = s.straps ∧ (storeSpeaker s).ref = s.ref ∧
    (storeSpeaker s).text = s.text ∧ (storeSpeaker s).timer = s.timer ∧ (storeSpeaker s).claims = s.claims ∧
    (storeSpeaker s).map = s.map ∧ (storeSpeaker s).floor = s.floor ∧ (storeSpeaker s).pacing = s.pacing ∧
    (storeSpeaker s).item = s.item ∧ (storeSpeaker s).line = s.line ∧ (storeSpeaker s).station = s.station ∧
    (storeSpeaker s).openOrders = s.openOrders := by
  unfold storeSpeaker; split <;> simp

@[simp] theorem releaseBlock_frame (t : Text) (s : State) :
    (releaseBlock t s).pending = s.pending ∧ (releaseBlock t s).straps = s.straps ∧ (releaseBlock t s).ref = s.ref ∧
    (releaseBlock t s).script = s.script ∧ (releaseBlock t s).claims = s.claims ∧ (releaseBlock t s).map = s.map ∧
    (releaseBlock t s).floor = s.floor ∧ (releaseBlock t s).pacing = s.pacing ∧ (releaseBlock t s).item = s.item ∧
    (releaseBlock t s).line = s.line ∧ (releaseBlock t s).station = s.station ∧ (releaseBlock t s).openOrders = s.openOrders := by simp [releaseBlock]

@[simp] theorem storeNext_frame (s : State) :
    (storeNext s).pending = s.pending ∧ (storeNext s).straps = s.straps ∧ (storeNext s).ref = s.ref ∧
    (storeNext s).claims = s.claims ∧ (storeNext s).map = s.map ∧ (storeNext s).floor = s.floor ∧
    (storeNext s).pacing = s.pacing ∧ (storeNext s).item = s.item ∧ (storeNext s).line = s.line ∧
    (storeNext s).station = s.station ∧ (storeNext s).openOrders = s.openOrders := by
  simp only [storeNext]; (repeat' split) <;> simp

end Sys2Proof.Machine
end

