-- ==== Sys2Proof/Laws/FrameTimer.lean ====
section
/-! SUPPORT. What the operations of the Pacing Set and the Cue Timer leave unchanged: every unit of the state that the equations name. -/

namespace Sys2Proof.Machine

@[simp] theorem enforceLimits_frame (s : State) :
    (enforceLimits s).pending = s.pending ∧ (enforceLimits s).straps = s.straps ∧ (enforceLimits s).ref = s.ref ∧
    (enforceLimits s).text = s.text ∧ (enforceLimits s).script = s.script ∧ (enforceLimits s).timer = s.timer ∧
    (enforceLimits s).claims = s.claims ∧ (enforceLimits s).map = s.map ∧ (enforceLimits s).floor = s.floor ∧
    (enforceLimits s).item = s.item ∧ (enforceLimits s).line = s.line ∧ (enforceLimits s).station = s.station ∧
    (enforceLimits s).openOrders = s.openOrders := by simp [enforceLimits]

@[simp] theorem reflectAtOnce_frame (s : State) :
    (reflectAtOnce s).pending = s.pending ∧ (reflectAtOnce s).straps = s.straps ∧ (reflectAtOnce s).ref = s.ref ∧
    (reflectAtOnce s).text = s.text ∧ (reflectAtOnce s).script = s.script ∧ (reflectAtOnce s).timer = s.timer ∧
    (reflectAtOnce s).claims = s.claims ∧ (reflectAtOnce s).map = s.map ∧ (reflectAtOnce s).floor = s.floor ∧
    (reflectAtOnce s).item = s.item ∧ (reflectAtOnce s).line = s.line ∧ (reflectAtOnce s).station = s.station ∧
    (reflectAtOnce s).openOrders = s.openOrders := by
  unfold reflectAtOnce; split <;> simp

@[simp] theorem reflectAtBlock_frame (s : State) :
    (reflectAtBlock s).pending = s.pending ∧ (reflectAtBlock s).straps = s.straps ∧ (reflectAtBlock s).ref = s.ref ∧
    (reflectAtBlock s).text = s.text ∧ (reflectAtBlock s).script = s.script ∧ (reflectAtBlock s).timer = s.timer ∧
    (reflectAtBlock s).claims = s.claims ∧ (reflectAtBlock s).map = s.map ∧ (reflectAtBlock s).floor = s.floor ∧
    (reflectAtBlock s).item = s.item ∧ (reflectAtBlock s).line = s.line ∧ (reflectAtBlock s).station = s.station ∧
    (reflectAtBlock s).openOrders = s.openOrders := by
  unfold reflectAtBlock; split <;> simp

@[simp] theorem reflectAtItem_frame (s : State) :
    (reflectAtItem s).pending = s.pending ∧ (reflectAtItem s).straps = s.straps ∧ (reflectAtItem s).ref = s.ref ∧
    (reflectAtItem s).text = s.text ∧ (reflectAtItem s).script = s.script ∧ (reflectAtItem s).timer = s.timer ∧
    (reflectAtItem s).claims = s.claims ∧ (reflectAtItem s).map = s.map ∧ (reflectAtItem s).floor = s.floor ∧
    (reflectAtItem s).item = s.item ∧ (reflectAtItem s).line = s.line ∧ (reflectAtItem s).station = s.station ∧
    (reflectAtItem s).openOrders = s.openOrders := by
  unfold reflectAtItem; split <;> simp

@[simp] theorem writeParam_frame (p : Param) (x : Nat) (s : State) :
    (writeParam p x s).pending = s.pending ∧ (writeParam p x s).straps = s.straps ∧ (writeParam p x s).ref = s.ref ∧
    (writeParam p x s).text = s.text ∧ (writeParam p x s).script = s.script ∧ (writeParam p x s).timer = s.timer ∧
    (writeParam p x s).claims = s.claims ∧ (writeParam p x s).map = s.map ∧ (writeParam p x s).floor = s.floor ∧
    (writeParam p x s).item = s.item ∧ (writeParam p x s).line = s.line ∧ (writeParam p x s).station = s.station ∧
    (writeParam p x s).openOrders = s.openOrders := by
  unfold writeParam; dsimp only; split <;> simp

@[simp] theorem closeCommand_frame (s : State) :
    (closeCommand s).pending = s.pending ∧ (closeCommand s).straps = s.straps ∧ (closeCommand s).ref = s.ref ∧
    (closeCommand s).text = s.text ∧ (closeCommand s).script = s.script ∧ (closeCommand s).timer = s.timer ∧
    (closeCommand s).claims = s.claims ∧ (closeCommand s).map = s.map ∧ (closeCommand s).floor = s.floor ∧
    (closeCommand s).item = s.item ∧ (closeCommand s).line = s.line ∧ (closeCommand s).station = s.station ∧
    (closeCommand s).openOrders = s.openOrders := by
  unfold closeCommand; split <;> simp

@[simp] theorem endCommand_frame (s : State) :
    (endCommand s).pending = s.pending ∧ (endCommand s).straps = s.straps ∧ (endCommand s).ref = s.ref ∧
    (endCommand s).text = s.text ∧ (endCommand s).script = s.script ∧ (endCommand s).timer = s.timer ∧
    (endCommand s).claims = s.claims ∧ (endCommand s).map = s.map ∧ (endCommand s).floor = s.floor ∧
    (endCommand s).item = s.item ∧ (endCommand s).line = s.line ∧ (endCommand s).station = s.station ∧
    (endCommand s).openOrders = s.openOrders := by
  simp only [endCommand]; (repeat' split) <;> simp

@[simp] theorem takeHead_frame (s : State) :
    (takeHead s).pending = s.pending ∧ (takeHead s).straps = s.straps ∧ (takeHead s).ref = s.ref ∧
    (takeHead s).script = s.script ∧ (takeHead s).timer = s.timer ∧ (takeHead s).claims = s.claims ∧ (takeHead s).map = s.map ∧
    (takeHead s).floor = s.floor ∧ (takeHead s).pacing = s.pacing ∧ (takeHead s).item = s.item ∧ (takeHead s).line = s.line ∧
    (takeHead s).station = s.station ∧ (takeHead s).report = s.report ∧ (takeHead s).openOrders = s.openOrders := by simp [takeHead]

@[simp] theorem planBlock_frame (b : Block) (s : State) :
    (planBlock b s).pending = s.pending ∧ (planBlock b s).straps = s.straps ∧ (planBlock b s).ref = s.ref ∧
    (planBlock b s).script = s.script ∧ (planBlock b s).map = s.map ∧ (planBlock b s).floor = s.floor ∧
    (planBlock b s).pacing = s.pacing ∧ (planBlock b s).item = s.item ∧ (planBlock b s).station = s.station ∧
    (planBlock b s).openOrders = s.openOrders := by
  simp only [planBlock]; (repeat' split) <;> simp

@[simp] theorem attempt_frame (s : State) :
    (attempt s).pending = s.pending ∧ (attempt s).straps = s.straps ∧ (attempt s).ref = s.ref ∧ (attempt s).script = s.script ∧
    (attempt s).map = s.map ∧ (attempt s).floor = s.floor ∧ (attempt s).item = s.item ∧ (attempt s).station = s.station ∧
    (attempt s).openOrders = s.openOrders := by
  unfold attempt; split <;> simp

@[simp] theorem attempts_frame (k : Nat) (s : State) :
    (attempts k s).pending = s.pending ∧ (attempts k s).straps = s.straps ∧ (attempts k s).ref = s.ref ∧
    (attempts k s).script = s.script ∧ (attempts k s).map = s.map ∧ (attempts k s).floor = s.floor ∧
    (attempts k s).item = s.item ∧ (attempts k s).station = s.station ∧ (attempts k s).openOrders = s.openOrders := by
  induction k generalizing s with
  | zero => simp [attempts]
  | succ k ih => simp only [attempts]; split <;> simp [ih]

end Sys2Proof.Machine
end

