-- ==== Sys2Proof/Laws/FrameFloor.lean ====
section
/-! SUPPORT. What the operations of the floor, of item boundaries, of the modes, and of the end of every act leave unchanged: every unit of the state that the equations name. -/

namespace Sys2Proof.Machine

@[simp] theorem peerPlainTake_frame (b : Nat) (s : State) :
    (peerPlainTake b s).pending = s.pending ∧ (peerPlainTake b s).straps = s.straps ∧ (peerPlainTake b s).ref = s.ref ∧
    (peerPlainTake b s).text = s.text ∧ (peerPlainTake b s).script = s.script ∧ (peerPlainTake b s).timer = s.timer ∧
    (peerPlainTake b s).claims = s.claims ∧ (peerPlainTake b s).map = s.map ∧ (peerPlainTake b s).pacing = s.pacing ∧
    (peerPlainTake b s).item = s.item ∧ (peerPlainTake b s).line = s.line ∧ (peerPlainTake b s).station = s.station ∧
    (peerPlainTake b s).report = s.report ∧ (peerPlainTake b s).openOrders = s.openOrders := by
  simp only [peerPlainTake]; (repeat' split) <;> simp

@[simp] theorem startBidWait_frame (s : State) :
    (startBidWait s).pending = s.pending ∧ (startBidWait s).straps = s.straps ∧ (startBidWait s).ref = s.ref ∧
    (startBidWait s).text = s.text ∧ (startBidWait s).script = s.script ∧ (startBidWait s).timer = s.timer ∧
    (startBidWait s).claims = s.claims ∧ (startBidWait s).map = s.map ∧ (startBidWait s).pacing = s.pacing ∧
    (startBidWait s).item = s.item ∧ (startBidWait s).line = s.line ∧ (startBidWait s).station = s.station ∧
    (startBidWait s).report = s.report ∧ (startBidWait s).openOrders = s.openOrders := by simp [startBidWait]

@[simp] theorem ownTakeView_frame (s : State) :
    (ownTakeView s).pending = s.pending ∧ (ownTakeView s).straps = s.straps ∧ (ownTakeView s).ref = s.ref ∧
    (ownTakeView s).text = s.text ∧ (ownTakeView s).script = s.script ∧ (ownTakeView s).claims = s.claims ∧
    (ownTakeView s).map = s.map ∧ (ownTakeView s).pacing = s.pacing ∧ (ownTakeView s).station = s.station ∧
    (ownTakeView s).report = s.report ∧ (ownTakeView s).openOrders = s.openOrders := by
  simp only [ownTakeView]; (repeat' split) <;> simp

@[simp] theorem ownPlainTake_frame (s : State) :
    (ownPlainTake s).pending = s.pending ∧ (ownPlainTake s).straps = s.straps ∧ (ownPlainTake s).ref = s.ref ∧
    (ownPlainTake s).text = s.text ∧ (ownPlainTake s).script = s.script ∧ (ownPlainTake s).claims = s.claims ∧
    (ownPlainTake s).map = s.map ∧ (ownPlainTake s).pacing = s.pacing ∧ (ownPlainTake s).station = s.station ∧
    (ownPlainTake s).openOrders = s.openOrders := by
  simp only [ownPlainTake]; (repeat' split) <;> simp

@[simp] theorem withdrawClaimed_frame (l : List Claim) (s : State) :
    (withdrawClaimed l s).pending = s.pending ∧ (withdrawClaimed l s).straps = s.straps ∧ (withdrawClaimed l s).ref = s.ref ∧
    (withdrawClaimed l s).script = s.script ∧ (withdrawClaimed l s).map = s.map ∧ (withdrawClaimed l s).pacing = s.pacing ∧
    (withdrawClaimed l s).station = s.station ∧ (withdrawClaimed l s).openOrders = s.openOrders := by
  induction l generalizing s with
  | nil => simp [withdrawClaimed]
  | cons c cs ih => simp only [withdrawClaimed, ih]; split <;> simp

@[simp] theorem forcedOffClaims_frame (s : State) :
    (forcedOffClaims s).pending = s.pending ∧ (forcedOffClaims s).straps = s.straps ∧ (forcedOffClaims s).ref = s.ref ∧
    (forcedOffClaims s).script = s.script ∧ (forcedOffClaims s).map = s.map ∧ (forcedOffClaims s).pacing = s.pacing ∧
    (forcedOffClaims s).station = s.station ∧ (forcedOffClaims s).openOrders = s.openOrders := by simp [forcedOffClaims]

@[simp] theorem forcedTakeView_frame (b : Nat) (s : State) :
    (forcedTakeView b s).pending = s.pending ∧ (forcedTakeView b s).straps = s.straps ∧ (forcedTakeView b s).ref = s.ref ∧
    (forcedTakeView b s).script = s.script ∧ (forcedTakeView b s).map = s.map ∧ (forcedTakeView b s).pacing = s.pacing ∧
    (forcedTakeView b s).station = s.station ∧ (forcedTakeView b s).openOrders = s.openOrders := by
  simp only [forcedTakeView]; (repeat' split) <;> simp

@[simp] theorem setPeer_frame (p : Nat) (f : Peer → Peer) (s : State) :
    (setPeer p f s).pending = s.pending ∧ (setPeer p f s).straps = s.straps ∧ (setPeer p f s).ref = s.ref ∧
    (setPeer p f s).text = s.text ∧ (setPeer p f s).script = s.script ∧ (setPeer p f s).timer = s.timer ∧
    (setPeer p f s).claims = s.claims ∧ (setPeer p f s).map = s.map ∧ (setPeer p f s).floor = s.floor ∧
    (setPeer p f s).pacing = s.pacing ∧ (setPeer p f s).item = s.item ∧ (setPeer p f s).station = s.station ∧
    (setPeer p f s).report = s.report ∧ (setPeer p f s).openOrders = s.openOrders := by simp [setPeer]

@[simp] theorem yieldView_frame (echo : Bool) (q : Option Nat) (s : State) :
    (yieldView echo q s).pending = s.pending ∧ (yieldView echo q s).straps = s.straps ∧ (yieldView echo q s).ref = s.ref ∧
    (yieldView echo q s).text = s.text ∧ (yieldView echo q s).script = s.script ∧ (yieldView echo q s).map = s.map ∧
    (yieldView echo q s).pacing = s.pacing ∧ (yieldView echo q s).station = s.station ∧
    (yieldView echo q s).openOrders = s.openOrders := by
  simp only [yieldView]; (repeat' split) <;> simp

@[simp] theorem silenceView_frame (p : Nat) (s : State) :
    (silenceView p s).pending = s.pending ∧ (silenceView p s).straps = s.straps ∧ (silenceView p s).ref = s.ref ∧
    (silenceView p s).text = s.text ∧ (silenceView p s).script = s.script ∧ (silenceView p s).claims = s.claims ∧
    (silenceView p s).map = s.map ∧ (silenceView p s).pacing = s.pacing ∧ (silenceView p s).station = s.station ∧
    (silenceView p s).report = s.report ∧ (silenceView p s).openOrders = s.openOrders := by
  simp only [silenceView]; (repeat' split) <;> simp

@[simp] theorem peerSilentAct_frame (p : Nat) (s : State) :
    (peerSilentAct p s).pending = s.pending ∧ (peerSilentAct p s).straps = s.straps ∧ (peerSilentAct p s).ref = s.ref ∧
    (peerSilentAct p s).text = s.text ∧ (peerSilentAct p s).script = s.script ∧ (peerSilentAct p s).claims = s.claims ∧
    (peerSilentAct p s).map = s.map ∧ (peerSilentAct p s).pacing = s.pacing ∧ (peerSilentAct p s).station = s.station ∧
    (peerSilentAct p s).report = s.report ∧ (peerSilentAct p s).openOrders = s.openOrders := by
  unfold peerSilentAct; split <;> simp

@[simp] theorem silenceAll_frame (l : List Nat) (s : State) :
    (silenceAll l s).pending = s.pending ∧ (silenceAll l s).straps = s.straps ∧ (silenceAll l s).ref = s.ref ∧
    (silenceAll l s).text = s.text ∧ (silenceAll l s).script = s.script ∧ (silenceAll l s).claims = s.claims ∧
    (silenceAll l s).map = s.map ∧ (silenceAll l s).pacing = s.pacing ∧ (silenceAll l s).station = s.station ∧
    (silenceAll l s).report = s.report ∧ (silenceAll l s).openOrders = s.openOrders := by
  induction l generalizing s with
  | nil => simp [silenceAll]
  | cons c cs ih => simp [silenceAll, ih]

@[simp] theorem holderFromState_frame (p : Nat) (s : State) :
    (holderFromState p s).pending = s.pending ∧ (holderFromState p s).straps = s.straps ∧ (holderFromState p s).ref = s.ref ∧
    (holderFromState p s).text = s.text ∧ (holderFromState p s).script = s.script ∧ (holderFromState p s).timer = s.timer ∧
    (holderFromState p s).claims = s.claims ∧ (holderFromState p s).map = s.map ∧ (holderFromState p s).pacing = s.pacing ∧
    (holderFromState p s).item = s.item ∧ (holderFromState p s).line = s.line ∧ (holderFromState p s).station = s.station ∧
    (holderFromState p s).report = s.report ∧ (holderFromState p s).openOrders = s.openOrders := by
  simp only [holderFromState]; (repeat' split) <;> simp

@[simp] theorem bid_frame (s : State) :
    (bid s).pending = s.pending ∧ (bid s).straps = s.straps ∧ (bid s).ref = s.ref ∧ (bid s).text = s.text ∧
    (bid s).script = s.script ∧ (bid s).timer = s.timer ∧ (bid s).claims = s.claims ∧ (bid s).map = s.map ∧
    (bid s).pacing = s.pacing ∧ (bid s).item = s.item ∧ (bid s).station = s.station ∧ (bid s).report = s.report ∧
    (bid s).openOrders = s.openOrders := by simp [bid]

@[simp] theorem autoTake_frame (s : State) :
    (autoTake s).pending = s.pending ∧ (autoTake s).straps = s.straps ∧ (autoTake s).ref = s.ref ∧ (autoTake s).text = s.text ∧
    (autoTake s).script = s.script ∧ (autoTake s).timer = s.timer ∧ (autoTake s).claims = s.claims ∧ (autoTake s).map = s.map ∧
    (autoTake s).pacing = s.pacing ∧ (autoTake s).item = s.item ∧ (autoTake s).station = s.station ∧
    (autoTake s).report = s.report ∧ (autoTake s).openOrders = s.openOrders := by
  unfold autoTake; split <;> simp

@[simp] theorem bidExpiryAct_frame (s : State) :
    (bidExpiryAct s).pending = s.pending ∧ (bidExpiryAct s).straps = s.straps ∧ (bidExpiryAct s).ref = s.ref ∧
    (bidExpiryAct s).text = s.text ∧ (bidExpiryAct s).script = s.script ∧ (bidExpiryAct s).timer = s.timer ∧
    (bidExpiryAct s).claims = s.claims ∧ (bidExpiryAct s).map = s.map ∧ (bidExpiryAct s).pacing = s.pacing ∧
    (bidExpiryAct s).item = s.item ∧ (bidExpiryAct s).station = s.station ∧ (bidExpiryAct s).report = s.report ∧
    (bidExpiryAct s).openOrders = s.openOrders := by
  unfold bidExpiryAct; split <;> simp

@[simp] theorem deadlineAct_frame (s : State) :
    (deadlineAct s).pending = s.pending ∧ (deadlineAct s).straps = s.straps ∧ (deadlineAct s).ref = s.ref ∧
    (deadlineAct s).script = s.script ∧ (deadlineAct s).claims = s.claims ∧ (deadlineAct s).map = s.map ∧
    (deadlineAct s).pacing = s.pacing ∧ (deadlineAct s).item = s.item ∧ (deadlineAct s).line = s.line ∧
    (deadlineAct s).station = s.station ∧ (deadlineAct s).openOrders = s.openOrders := by
  unfold deadlineAct; split <;> simp

@[simp] theorem oweYield_frame (s : State) :
    (oweYield s).pending = s.pending ∧ (oweYield s).straps = s.straps ∧ (oweYield s).ref = s.ref ∧ (oweYield s).text = s.text ∧
    (oweYield s).script = s.script ∧ (oweYield s).timer = s.timer ∧ (oweYield s).claims = s.claims ∧ (oweYield s).map = s.map ∧
    (oweYield s).pacing = s.pacing ∧ (oweYield s).item = s.item ∧ (oweYield s).line = s.line ∧
    (oweYield s).station = s.station ∧ (oweYield s).report = s.report ∧ (oweYield s).openOrders = s.openOrders := by
  unfold oweYield; split <;> simp

@[simp] theorem parkNow_frame (s : State) :
    (parkNow s).pending = s.pending ∧ (parkNow s).straps = s.straps ∧ (parkNow s).ref = s.ref ∧ (parkNow s).text = s.text ∧
    (parkNow s).script = s.script ∧ (parkNow s).timer = s.timer ∧ (parkNow s).claims = s.claims ∧ (parkNow s).map = s.map ∧
    (parkNow s).pacing = s.pacing ∧ (parkNow s).item = s.item ∧ (parkNow s).line = s.line ∧ (parkNow s).report = s.report ∧
    (parkNow s).openOrders = s.openOrders := by simp [parkNow]

@[simp] theorem parkAct_frame (s : State) :
    (parkAct s).pending = s.pending ∧ (parkAct s).straps = s.straps ∧ (parkAct s).ref = s.ref ∧ (parkAct s).text = s.text ∧
    (parkAct s).script = s.script ∧ (parkAct s).timer = s.timer ∧ (parkAct s).claims = s.claims ∧ (parkAct s).map = s.map ∧
    (parkAct s).pacing = s.pacing ∧ (parkAct s).item = s.item ∧ (parkAct s).line = s.line ∧ (parkAct s).report = s.report ∧
    (parkAct s).openOrders = s.openOrders := by
  unfold parkAct; split <;> simp

@[simp] theorem takeBoundary_frame (b : Frame) (number : Byte) (s : State) :
    (takeBoundary b number s).pending = s.pending ∧ (takeBoundary b number s).straps = s.straps ∧
    (takeBoundary b number s).ref = s.ref ∧ (takeBoundary b number s).script = s.script ∧
    (takeBoundary b number s).claims = s.claims ∧ (takeBoundary b number s).floor = s.floor ∧
    (takeBoundary b number s).line = s.line ∧ (takeBoundary b number s).station = s.station ∧
    (takeBoundary b number s).openOrders = s.openOrders := by simp [takeBoundary]

@[simp] theorem dropOwnItem_frame (s : State) :
    (dropOwnItem s).pending = s.pending ∧ (dropOwnItem s).straps = s.straps ∧ (dropOwnItem s).ref = s.ref ∧
    (dropOwnItem s).text = s.text ∧ (dropOwnItem s).script = s.script ∧ (dropOwnItem s).timer = s.timer ∧
    (dropOwnItem s).claims = s.claims ∧ (dropOwnItem s).map = s.map ∧ (dropOwnItem s).floor = s.floor ∧
    (dropOwnItem s).pacing = s.pacing ∧ (dropOwnItem s).station = s.station ∧ (dropOwnItem s).report = s.report ∧
    (dropOwnItem s).openOrders = s.openOrders := by
  unfold dropOwnItem; split <;> simp

@[simp] theorem takeItem_frame (echo : Bool) (b : Frame) (number : Byte) (s : State) :
    (takeItem echo b number s).pending = s.pending ∧ (takeItem echo b number s).straps = s.straps ∧
    (takeItem echo b number s).ref = s.ref ∧ (takeItem echo b number s).script = s.script ∧
    (takeItem echo b number s).claims = s.claims ∧ (takeItem echo b number s).floor = s.floor ∧
    (takeItem echo b number s).station = s.station ∧ (takeItem echo b number s).openOrders = s.openOrders := by
  simp only [takeItem]; (repeat' split) <;> simp

@[simp] theorem enterMute_frame (s : State) :
    (enterMute s).pending = s.pending ∧ (enterMute s).straps = s.straps ∧ (enterMute s).ref = s.ref ∧
    (enterMute s).text = s.text ∧ (enterMute s).script = s.script ∧ (enterMute s).timer = s.timer ∧ (enterMute s).map = s.map ∧
    (enterMute s).pacing = s.pacing ∧ (enterMute s).openOrders = s.openOrders := by
  simp only [enterMute]; (repeat' split) <;> simp

@[simp] theorem resetLine_frame (s : State) :
    (resetLine s).pending = s.pending ∧ (resetLine s).straps = s.straps ∧ (resetLine s).ref = s.ref ∧
    (resetLine s).text = s.text ∧ (resetLine s).script = s.script ∧ (resetLine s).timer = s.timer ∧ (resetLine s).map = s.map ∧
    (resetLine s).floor = s.floor ∧ (resetLine s).pacing = s.pacing ∧ (resetLine s).item = s.item ∧
    (resetLine s).station = s.station ∧ (resetLine s).report = s.report ∧ (resetLine s).openOrders = s.openOrders := by simp [resetLine]

@[simp] theorem queueResetCuts_frame (l : List (Byte × Frame)) (s : State) :
    (queueResetCuts l s).pending = s.pending ∧ (queueResetCuts l s).straps = s.straps ∧ (queueResetCuts l s).ref = s.ref ∧
    (queueResetCuts l s).script = s.script ∧ (queueResetCuts l s).map = s.map ∧ (queueResetCuts l s).pacing = s.pacing ∧
    (queueResetCuts l s).station = s.station ∧ (queueResetCuts l s).openOrders = s.openOrders := by
  induction l generalizing s with
  | nil => simp [queueResetCuts]
  | cons c cs ih => simp [queueResetCuts, ih]

@[simp] theorem resetClaims_frame (s : State) :
    (resetClaims s).pending = s.pending ∧ (resetClaims s).straps = s.straps ∧ (resetClaims s).ref = s.ref ∧
    (resetClaims s).script = s.script ∧ (resetClaims s).map = s.map ∧ (resetClaims s).pacing = s.pacing ∧
    (resetClaims s).station = s.station ∧ (resetClaims s).openOrders = s.openOrders := by simp [resetClaims]

@[simp] theorem resetFloor_frame (s : State) :
    (resetFloor s).pending = s.pending ∧ (resetFloor s).straps = s.straps ∧ (resetFloor s).ref = s.ref ∧
    (resetFloor s).text = s.text ∧ (resetFloor s).script = s.script ∧ (resetFloor s).timer = s.timer ∧
    (resetFloor s).claims = s.claims ∧ (resetFloor s).map = s.map ∧ (resetFloor s).pacing = s.pacing ∧
    (resetFloor s).item = s.item ∧ (resetFloor s).line = s.line ∧ (resetFloor s).station = s.station ∧
    (resetFloor s).report = s.report ∧ (resetFloor s).openOrders = s.openOrders := by
  unfold resetFloor; dsimp only; split <;> simp

@[simp] theorem resetItem_frame (s : State) :
    (resetItem s).pending = s.pending ∧ (resetItem s).straps = s.straps ∧ (resetItem s).ref = s.ref ∧
    (resetItem s).text = s.text ∧ (resetItem s).script = s.script ∧ (resetItem s).timer = s.timer ∧
    (resetItem s).claims = s.claims ∧ (resetItem s).map = s.map ∧ (resetItem s).floor = s.floor ∧
    (resetItem s).pacing = s.pacing ∧ (resetItem s).line = s.line ∧ (resetItem s).station = s.station ∧
    (resetItem s).report = s.report ∧ (resetItem s).openOrders = s.openOrders := by
  unfold resetItem; split <;> simp

@[simp] theorem enterResetting_frame (s : State) :
    (enterResetting s).pending = s.pending ∧ (enterResetting s).straps = s.straps ∧ (enterResetting s).ref = s.ref ∧
    (enterResetting s).map = s.map ∧ (enterResetting s).openOrders = s.openOrders := by simp [enterResetting]

@[simp] theorem endResetting_frame (s : State) :
    (endResetting s).pending = s.pending ∧ (endResetting s).straps = s.straps ∧ (endResetting s).ref = s.ref ∧
    (endResetting s).text = s.text ∧ (endResetting s).script = s.script ∧ (endResetting s).timer = s.timer ∧
    (endResetting s).pacing = s.pacing ∧ (endResetting s).item = s.item ∧ (endResetting s).report = s.report ∧
    (endResetting s).openOrders = s.openOrders := by simp [endResetting]

@[simp] theorem drainAct_frame (s : State) :
    (drainAct s).pending = s.pending ∧ (drainAct s).straps = s.straps ∧ (drainAct s).ref = s.ref ∧ (drainAct s).text = s.text ∧
    (drainAct s).script = s.script ∧ (drainAct s).timer = s.timer ∧ (drainAct s).pacing = s.pacing ∧
    (drainAct s).item = s.item ∧ (drainAct s).report = s.report ∧ (drainAct s).openOrders = s.openOrders := by
  unfold drainAct; split <;> simp

@[simp] theorem resetCountAct_frame (s : State) :
    (resetCountAct s).pending = s.pending ∧ (resetCountAct s).straps = s.straps ∧ (resetCountAct s).ref = s.ref ∧
    (resetCountAct s).text = s.text ∧ (resetCountAct s).script = s.script ∧ (resetCountAct s).timer = s.timer ∧
    (resetCountAct s).pacing = s.pacing ∧ (resetCountAct s).item = s.item ∧ (resetCountAct s).report = s.report ∧
    (resetCountAct s).openOrders = s.openOrders := by
  unfold resetCountAct; split <;> simp

@[simp] theorem joinAct_frame (s : State) :
    (joinAct s).pending = s.pending ∧ (joinAct s).straps = s.straps ∧ (joinAct s).ref = s.ref ∧ (joinAct s).text = s.text ∧
    (joinAct s).script = s.script ∧ (joinAct s).timer = s.timer ∧ (joinAct s).claims = s.claims ∧ (joinAct s).map = s.map ∧
    (joinAct s).floor = s.floor ∧ (joinAct s).pacing = s.pacing ∧ (joinAct s).item = s.item ∧ (joinAct s).line = s.line ∧
    (joinAct s).report = s.report ∧ (joinAct s).openOrders = s.openOrders := by
  unfold joinAct; split <;> simp

@[simp] theorem settle_frame (s : State) :
    (settle s).pending = s.pending ∧ (settle s).straps = s.straps ∧ (settle s).ref = s.ref ∧ (settle s).script = s.script ∧
    (settle s).openOrders = s.openOrders := by simp [settle]

@[simp] theorem floorReport_frame (s : State) :
    (floorReport s).pending = s.pending ∧ (floorReport s).straps = s.straps ∧ (floorReport s).ref = s.ref ∧
    (floorReport s).text = s.text ∧ (floorReport s).script = s.script ∧ (floorReport s).timer = s.timer ∧
    (floorReport s).claims = s.claims ∧ (floorReport s).map = s.map ∧ (floorReport s).pacing = s.pacing ∧
    (floorReport s).item = s.item ∧ (floorReport s).line = s.line ∧ (floorReport s).station = s.station ∧
    (floorReport s).openOrders = s.openOrders := by
  unfold floorReport; split <;> simp

@[simp] theorem finish_frame (s : State) :
    (finish s).pending = s.pending ∧ (finish s).straps = s.straps ∧ (finish s).ref = s.ref ∧ (finish s).script = s.script ∧
    (finish s).openOrders = s.openOrders := by simp [finish]

end Sys2Proof.Machine
end

