-- ==== Sys2Proof/Laws/FrameBoundary.lean ====
section
/-! SUPPORT. What the operations of a frame boundary leave unchanged: every unit of the state that the equations name. -/

namespace Sys2Proof.Machine

@[simp] theorem timecodeLostAct_frame (s : State) :
    (timecodeLostAct s).pending = s.pending ∧ (timecodeLostAct s).straps = s.straps ∧ (timecodeLostAct s).text = s.text ∧
    (timecodeLostAct s).script = s.script ∧ (timecodeLostAct s).timer = s.timer ∧ (timecodeLostAct s).claims = s.claims ∧
    (timecodeLostAct s).map = s.map ∧ (timecodeLostAct s).floor = s.floor ∧ (timecodeLostAct s).pacing = s.pacing ∧
    (timecodeLostAct s).item = s.item ∧ (timecodeLostAct s).line = s.line ∧ (timecodeLostAct s).station = s.station ∧
    (timecodeLostAct s).report = s.report ∧ (timecodeLostAct s).openOrders = s.openOrders := by
  unfold timecodeLostAct; split <;> simp

@[simp] theorem peerTimeAct_frame (s : State) :
    (peerTimeAct s).pending = s.pending ∧ (peerTimeAct s).straps = s.straps ∧ (peerTimeAct s).text = s.text ∧
    (peerTimeAct s).script = s.script ∧ (peerTimeAct s).timer = s.timer ∧ (peerTimeAct s).claims = s.claims ∧
    (peerTimeAct s).map = s.map ∧ (peerTimeAct s).floor = s.floor ∧ (peerTimeAct s).pacing = s.pacing ∧
    (peerTimeAct s).item = s.item ∧ (peerTimeAct s).line = s.line ∧ (peerTimeAct s).station = s.station ∧
    (peerTimeAct s).report = s.report ∧ (peerTimeAct s).openOrders = s.openOrders := by
  unfold peerTimeAct; split <;> simp

@[simp] theorem countFrame_frame (s : State) :
    (countFrame s).pending = s.pending ∧ (countFrame s).straps = s.straps ∧ (countFrame s).text = s.text ∧
    (countFrame s).script = s.script ∧ (countFrame s).timer = s.timer ∧ (countFrame s).claims = s.claims ∧
    (countFrame s).map = s.map ∧ (countFrame s).floor = s.floor ∧ (countFrame s).pacing = s.pacing ∧
    (countFrame s).item = s.item ∧ (countFrame s).line = s.line ∧ (countFrame s).station = s.station ∧
    (countFrame s).openOrders = s.openOrders := by simp [countFrame]

@[simp] theorem lineBoundary_frame (t : Moment) (s : State) :
    (lineBoundary t s).pending = s.pending ∧ (lineBoundary t s).straps = s.straps ∧ (lineBoundary t s).text = s.text ∧
    (lineBoundary t s).script = s.script ∧ (lineBoundary t s).timer = s.timer ∧ (lineBoundary t s).claims = s.claims ∧
    (lineBoundary t s).map = s.map ∧ (lineBoundary t s).floor = s.floor ∧ (lineBoundary t s).pacing = s.pacing ∧
    (lineBoundary t s).item = s.item ∧ (lineBoundary t s).station = s.station ∧ (lineBoundary t s).report = s.report ∧
    (lineBoundary t s).openOrders = s.openOrders := by simp [lineBoundary]

@[simp] theorem tickLine_frame (s : State) :
    (tickLine s).pending = s.pending ∧ (tickLine s).straps = s.straps ∧ (tickLine s).ref = s.ref ∧ (tickLine s).text = s.text ∧
    (tickLine s).script = s.script ∧ (tickLine s).timer = s.timer ∧ (tickLine s).claims = s.claims ∧ (tickLine s).map = s.map ∧
    (tickLine s).floor = s.floor ∧ (tickLine s).pacing = s.pacing ∧ (tickLine s).item = s.item ∧
    (tickLine s).station = s.station ∧ (tickLine s).report = s.report ∧ (tickLine s).openOrders = s.openOrders := by simp [tickLine]

@[simp] theorem tickStation_frame (s : State) :
    (tickStation s).pending = s.pending ∧ (tickStation s).straps = s.straps ∧ (tickStation s).ref = s.ref ∧
    (tickStation s).text = s.text ∧ (tickStation s).script = s.script ∧ (tickStation s).timer = s.timer ∧
    (tickStation s).claims = s.claims ∧ (tickStation s).map = s.map ∧ (tickStation s).floor = s.floor ∧
    (tickStation s).pacing = s.pacing ∧ (tickStation s).item = s.item ∧ (tickStation s).line = s.line ∧
    (tickStation s).report = s.report ∧ (tickStation s).openOrders = s.openOrders := by simp [tickStation]

@[simp] theorem tickFloor_frame (s : State) :
    (tickFloor s).pending = s.pending ∧ (tickFloor s).straps = s.straps ∧ (tickFloor s).ref = s.ref ∧
    (tickFloor s).text = s.text ∧ (tickFloor s).script = s.script ∧ (tickFloor s).timer = s.timer ∧
    (tickFloor s).claims = s.claims ∧ (tickFloor s).map = s.map ∧ (tickFloor s).pacing = s.pacing ∧
    (tickFloor s).item = s.item ∧ (tickFloor s).line = s.line ∧ (tickFloor s).station = s.station ∧
    (tickFloor s).report = s.report ∧ (tickFloor s).openOrders = s.openOrders := by simp [tickFloor]

@[simp] theorem tickIdle_frame (s : State) :
    (tickIdle s).pending = s.pending ∧ (tickIdle s).straps = s.straps ∧ (tickIdle s).ref = s.ref ∧
    (tickIdle s).script = s.script ∧ (tickIdle s).timer = s.timer ∧ (tickIdle s).claims = s.claims ∧ (tickIdle s).map = s.map ∧
    (tickIdle s).floor = s.floor ∧ (tickIdle s).pacing = s.pacing ∧ (tickIdle s).item = s.item ∧ (tickIdle s).line = s.line ∧
    (tickIdle s).station = s.station ∧ (tickIdle s).report = s.report ∧ (tickIdle s).openOrders = s.openOrders := by simp [tickIdle]

@[simp] theorem queueState_frame (s : State) :
    (queueState s).pending = s.pending ∧ (queueState s).straps = s.straps ∧ (queueState s).ref = s.ref ∧
    (queueState s).text = s.text ∧ (queueState s).script = s.script ∧ (queueState s).timer = s.timer ∧
    (queueState s).claims = s.claims ∧ (queueState s).map = s.map ∧ (queueState s).floor = s.floor ∧
    (queueState s).pacing = s.pacing ∧ (queueState s).item = s.item ∧ (queueState s).station = s.station ∧
    (queueState s).report = s.report ∧ (queueState s).openOrders = s.openOrders := by
  simp only [queueState]; (repeat' split) <;> simp

@[simp] theorem stateDueAct_frame (s : State) :
    (stateDueAct s).pending = s.pending ∧ (stateDueAct s).straps = s.straps ∧ (stateDueAct s).ref = s.ref ∧
    (stateDueAct s).text = s.text ∧ (stateDueAct s).script = s.script ∧ (stateDueAct s).timer = s.timer ∧
    (stateDueAct s).claims = s.claims ∧ (stateDueAct s).map = s.map ∧ (stateDueAct s).floor = s.floor ∧
    (stateDueAct s).pacing = s.pacing ∧ (stateDueAct s).item = s.item ∧ (stateDueAct s).station = s.station ∧
    (stateDueAct s).report = s.report ∧ (stateDueAct s).openOrders = s.openOrders := by
  simp only [stateDueAct]; (repeat' split) <;> simp

@[simp] theorem beginFrame_frame (t : Moment) (s : State) :
    (beginFrame t s).pending = s.pending ∧ (beginFrame t s).straps = s.straps ∧ (beginFrame t s).text = s.text ∧
    (beginFrame t s).script = s.script ∧ (beginFrame t s).timer = s.timer ∧ (beginFrame t s).claims = s.claims ∧
    (beginFrame t s).map = s.map ∧ (beginFrame t s).pacing = s.pacing ∧ (beginFrame t s).item = s.item ∧
    (beginFrame t s).openOrders = s.openOrders := by simp [beginFrame]

@[simp] theorem builderBoundary_frame (s : State) :
    (builderBoundary s).pending = s.pending ∧ (builderBoundary s).straps = s.straps ∧ (builderBoundary s).ref = s.ref ∧
    (builderBoundary s).script = s.script ∧ (builderBoundary s).claims = s.claims ∧ (builderBoundary s).map = s.map ∧
    (builderBoundary s).floor = s.floor ∧ (builderBoundary s).pacing = s.pacing ∧ (builderBoundary s).item = s.item ∧
    (builderBoundary s).line = s.line ∧ (builderBoundary s).station = s.station ∧ (builderBoundary s).openOrders = s.openOrders := by simp [builderBoundary]

@[simp] theorem boundary_frame (t : Moment) (s : State) :
    (boundary t s).pending = s.pending ∧ (boundary t s).straps = s.straps ∧ (boundary t s).script = s.script := by simp [boundary]

@[simp] theorem phaseLoad_frame (f : Frame) (s : State) :
    (phaseLoad f s).pending = s.pending ∧ (phaseLoad f s).straps = s.straps ∧ (phaseLoad f s).script = s.script ∧
    (phaseLoad f s).pacing = s.pacing ∧ (phaseLoad f s).station = s.station := by
  unfold phaseLoad; dsimp only; split <;> simp

end Sys2Proof.Machine
end

