-- ==== Sys2Proof/Laws/FrameLine.lean ====
section
/-! SUPPORT. What the operations of the Line Interface leave unchanged: every unit of the state that the equations name. -/

namespace Sys2Proof.Machine

@[simp] theorem mismatchAct_frame (s : State) :
    (mismatchAct s).pending = s.pending ∧ (mismatchAct s).straps = s.straps ∧ (mismatchAct s).ref = s.ref ∧
    (mismatchAct s).text = s.text ∧ (mismatchAct s).script = s.script ∧ (mismatchAct s).timer = s.timer ∧
    (mismatchAct s).claims = s.claims ∧ (mismatchAct s).map = s.map ∧ (mismatchAct s).floor = s.floor ∧
    (mismatchAct s).pacing = s.pacing ∧ (mismatchAct s).item = s.item ∧ (mismatchAct s).station = s.station ∧
    (mismatchAct s).openOrders = s.openOrders := by simp [mismatchAct]

@[simp] theorem endReception_frame (s : State) :
    (endReception s).pending = s.pending ∧ (endReception s).straps = s.straps ∧ (endReception s).ref = s.ref ∧
    (endReception s).text = s.text ∧ (endReception s).script = s.script ∧ (endReception s).timer = s.timer ∧
    (endReception s).claims = s.claims ∧ (endReception s).map = s.map ∧ (endReception s).floor = s.floor ∧
    (endReception s).pacing = s.pacing ∧ (endReception s).item = s.item ∧ (endReception s).station = s.station ∧
    (endReception s).report = s.report ∧ (endReception s).openOrders = s.openOrders := by simp [endReception]

@[simp] theorem discardPacket_frame (s : State) :
    (discardPacket s).pending = s.pending ∧ (discardPacket s).straps = s.straps ∧ (discardPacket s).ref = s.ref ∧
    (discardPacket s).text = s.text ∧ (discardPacket s).script = s.script ∧ (discardPacket s).timer = s.timer ∧
    (discardPacket s).claims = s.claims ∧ (discardPacket s).map = s.map ∧ (discardPacket s).floor = s.floor ∧
    (discardPacket s).pacing = s.pacing ∧ (discardPacket s).item = s.item ∧ (discardPacket s).station = s.station ∧
    (discardPacket s).openOrders = s.openOrders := by simp [discardPacket]

@[simp] theorem markHeard_frame (sender : Nat) (s : State) :
    (markHeard sender s).pending = s.pending ∧ (markHeard sender s).straps = s.straps ∧ (markHeard sender s).ref = s.ref ∧
    (markHeard sender s).text = s.text ∧ (markHeard sender s).script = s.script ∧ (markHeard sender s).timer = s.timer ∧
    (markHeard sender s).claims = s.claims ∧ (markHeard sender s).map = s.map ∧ (markHeard sender s).floor = s.floor ∧
    (markHeard sender s).pacing = s.pacing ∧ (markHeard sender s).item = s.item ∧ (markHeard sender s).station = s.station ∧
    (markHeard sender s).report = s.report ∧ (markHeard sender s).openOrders = s.openOrders := by simp [markHeard]

@[simp] theorem takeCue_frame (sender : Nat) (b : CueBody) (s : State) :
    (takeCue sender b s).pending = s.pending ∧ (takeCue sender b s).straps = s.straps ∧ (takeCue sender b s).ref = s.ref ∧
    (takeCue sender b s).script = s.script ∧ (takeCue sender b s).pacing = s.pacing ∧
    (takeCue sender b s).station = s.station ∧ (takeCue sender b s).openOrders = s.openOrders := by simp [takeCue]

@[simp] theorem takeRevise_frame (sender : Nat) (b : CueBody) (s : State) :
    (takeRevise sender b s).pending = s.pending ∧ (takeRevise sender b s).straps = s.straps ∧
    (takeRevise sender b s).ref = s.ref ∧ (takeRevise sender b s).script = s.script ∧
    (takeRevise sender b s).pacing = s.pacing ∧ (takeRevise sender b s).station = s.station ∧
    (takeRevise sender b s).openOrders = s.openOrders := by simp [takeRevise]

@[simp] theorem takeCut_frame (sender : Nat) (seq : Byte) (off : Frame) (s : State) :
    (takeCut sender seq off s).pending = s.pending ∧ (takeCut sender seq off s).straps = s.straps ∧
    (takeCut sender seq off s).ref = s.ref ∧ (takeCut sender seq off s).script = s.script ∧
    (takeCut sender seq off s).pacing = s.pacing ∧ (takeCut sender seq off s).station = s.station ∧
    (takeCut sender seq off s).openOrders = s.openOrders := by simp [takeCut]

@[simp] theorem takeTime_frame (sender : Nat) (b : StateBody) (passed : Nat) (s : State) :
    (takeTime sender b passed s).pending = s.pending ∧ (takeTime sender b passed s).straps = s.straps ∧
    (takeTime sender b passed s).script = s.script ∧ (takeTime sender b passed s).pacing = s.pacing ∧
    (takeTime sender b passed s).station = s.station := by
  simp only [takeTime]; (repeat' split) <;> simp

@[simp] theorem announce_frame (sender : Nat) (b : StateBody) (s : State) :
    (announce sender b s).pending = s.pending ∧ (announce sender b s).straps = s.straps ∧ (announce sender b s).ref = s.ref ∧
    (announce sender b s).text = s.text ∧ (announce sender b s).script = s.script ∧ (announce sender b s).timer = s.timer ∧
    (announce sender b s).claims = s.claims ∧ (announce sender b s).map = s.map ∧ (announce sender b s).floor = s.floor ∧
    (announce sender b s).pacing = s.pacing ∧ (announce sender b s).item = s.item ∧ (announce sender b s).station = s.station ∧
    (announce sender b s).report = s.report ∧ (announce sender b s).openOrders = s.openOrders := by simp [announce]

@[simp] theorem joinItem_frame (number : Byte) (s : State) :
    (joinItem number s).pending = s.pending ∧ (joinItem number s).straps = s.straps ∧ (joinItem number s).ref = s.ref ∧
    (joinItem number s).text = s.text ∧ (joinItem number s).script = s.script ∧ (joinItem number s).timer = s.timer ∧
    (joinItem number s).claims = s.claims ∧ (joinItem number s).map = s.map ∧ (joinItem number s).floor = s.floor ∧
    (joinItem number s).pacing = s.pacing ∧ (joinItem number s).line = s.line ∧ (joinItem number s).station = s.station ∧
    (joinItem number s).report = s.report ∧ (joinItem number s).openOrders = s.openOrders := by
  unfold joinItem; split <;> simp

@[simp] theorem takeState_frame (sender : Nat) (b : StateBody) (passed : Nat) (s : State) :
    (takeState sender b passed s).pending = s.pending ∧ (takeState sender b passed s).straps = s.straps ∧
    (takeState sender b passed s).script = s.script ∧ (takeState sender b passed s).pacing = s.pacing ∧
    (takeState sender b passed s).station = s.station := by simp [takeState]

@[simp] theorem giveBack_frame (k : PacketKind) (why : StartTest) (s : State) :
    (giveBack k why s).pending = s.pending ∧ (giveBack k why s).straps = s.straps ∧ (giveBack k why s).ref = s.ref ∧
    (giveBack k why s).script = s.script ∧ (giveBack k why s).map = s.map ∧ (giveBack k why s).floor = s.floor ∧
    (giveBack k why s).pacing = s.pacing ∧ (giveBack k why s).station = s.station ∧ (giveBack k why s).openOrders = s.openOrders := by
  simp only [giveBack]; (repeat' split) <;> simp

@[simp] theorem ownerStarts_frame (k : PacketKind) (s : State) :
    (ownerStarts k s).pending = s.pending ∧ (ownerStarts k s).straps = s.straps ∧ (ownerStarts k s).ref = s.ref ∧
    (ownerStarts k s).text = s.text ∧ (ownerStarts k s).script = s.script ∧ (ownerStarts k s).timer = s.timer ∧
    (ownerStarts k s).map = s.map ∧ (ownerStarts k s).floor = s.floor ∧ (ownerStarts k s).pacing = s.pacing ∧
    (ownerStarts k s).line = s.line ∧ (ownerStarts k s).station = s.station ∧ (ownerStarts k s).report = s.report ∧
    (ownerStarts k s).openOrders = s.openOrders := by
  unfold ownerStarts; split <;> simp

@[simp] theorem startPacket_frame (q : QPacket) (sent : Sent) (s : State) :
    (startPacket q sent s).pending = s.pending ∧ (startPacket q sent s).straps = s.straps ∧
    (startPacket q sent s).ref = s.ref ∧ (startPacket q sent s).text = s.text ∧ (startPacket q sent s).script = s.script ∧
    (startPacket q sent s).timer = s.timer ∧ (startPacket q sent s).map = s.map ∧ (startPacket q sent s).floor = s.floor ∧
    (startPacket q sent s).pacing = s.pacing ∧ (startPacket q sent s).station = s.station ∧
    (startPacket q sent s).report = s.report ∧ (startPacket q sent s).openOrders = s.openOrders := by simp [startPacket]

@[simp] theorem startHead_frame (k : Nat) (t : Moment) (s : State) :
    (startHead k t s).pending = s.pending ∧ (startHead k t s).straps = s.straps ∧ (startHead k t s).ref = s.ref ∧
    (startHead k t s).script = s.script ∧ (startHead k t s).map = s.map ∧ (startHead k t s).floor = s.floor ∧
    (startHead k t s).pacing = s.pacing ∧ (startHead k t s).station = s.station ∧ (startHead k t s).openOrders = s.openOrders := by
  induction k generalizing s with
  | zero => simp [startHead]
  | succ k ih => simp only [startHead]; (repeat' split) <;> simp [ih]

@[simp] theorem leaveQueue_frame (s : State) :
    (leaveQueue s).pending = s.pending ∧ (leaveQueue s).straps = s.straps ∧ (leaveQueue s).ref = s.ref ∧
    (leaveQueue s).text = s.text ∧ (leaveQueue s).script = s.script ∧ (leaveQueue s).timer = s.timer ∧
    (leaveQueue s).claims = s.claims ∧ (leaveQueue s).map = s.map ∧ (leaveQueue s).floor = s.floor ∧
    (leaveQueue s).pacing = s.pacing ∧ (leaveQueue s).station = s.station ∧ (leaveQueue s).report = s.report ∧
    (leaveQueue s).openOrders = s.openOrders := by simp [leaveQueue]

@[simp] theorem airAtEcho_frame (seq : Byte) (s : State) :
    (airAtEcho seq s).pending = s.pending ∧ (airAtEcho seq s).straps = s.straps ∧ (airAtEcho seq s).ref = s.ref ∧
    (airAtEcho seq s).text = s.text ∧ (airAtEcho seq s).script = s.script ∧ (airAtEcho seq s).timer = s.timer ∧
    (airAtEcho seq s).map = s.map ∧ (airAtEcho seq s).floor = s.floor ∧ (airAtEcho seq s).pacing = s.pacing ∧
    (airAtEcho seq s).item = s.item ∧ (airAtEcho seq s).line = s.line ∧ (airAtEcho seq s).station = s.station ∧
    (airAtEcho seq s).openOrders = s.openOrders := by
  simp only [airAtEcho]; (repeat' split) <;> simp

@[simp] theorem cueEcho_frame (b : CueBody) (s : State) :
    (cueEcho b s).pending = s.pending ∧ (cueEcho b s).straps = s.straps ∧ (cueEcho b s).ref = s.ref ∧
    (cueEcho b s).script = s.script ∧ (cueEcho b s).pacing = s.pacing ∧ (cueEcho b s).station = s.station ∧
    (cueEcho b s).openOrders = s.openOrders := by
  unfold cueEcho; split <;> simp

@[simp] theorem reviseEcho_frame (b : CueBody) (t : Text) (s : State) :
    (reviseEcho b t s).pending = s.pending ∧ (reviseEcho b t s).straps = s.straps ∧ (reviseEcho b t s).ref = s.ref ∧
    (reviseEcho b t s).script = s.script ∧ (reviseEcho b t s).pacing = s.pacing ∧ (reviseEcho b t s).station = s.station ∧
    (reviseEcho b t s).openOrders = s.openOrders := by
  simp only [reviseEcho]; (repeat' split) <;> simp

@[simp] theorem cutEcho_frame (seq : Byte) (off : Frame) (s : State) :
    (cutEcho seq off s).pending = s.pending ∧ (cutEcho seq off s).straps = s.straps ∧ (cutEcho seq off s).ref = s.ref ∧
    (cutEcho seq off s).script = s.script ∧ (cutEcho seq off s).pacing = s.pacing ∧ (cutEcho seq off s).station = s.station ∧
    (cutEcho seq off s).openOrders = s.openOrders := by
  unfold cutEcho; split <;> simp

@[simp] theorem endUnlisted_frame (l : List Cue) (s : State) :
    (endUnlisted l s).pending = s.pending ∧ (endUnlisted l s).straps = s.straps ∧ (endUnlisted l s).ref = s.ref ∧
    (endUnlisted l s).script = s.script ∧ (endUnlisted l s).map = s.map ∧ (endUnlisted l s).pacing = s.pacing ∧
    (endUnlisted l s).station = s.station ∧ (endUnlisted l s).openOrders = s.openOrders := by
  induction l generalizing s with
  | nil => simp [endUnlisted]
  | cons c cs ih => simp only [endUnlisted, ih]; split <;> simp

@[simp] theorem stateEcho_frame (b : StateBody) (s : State) :
    (stateEcho b s).pending = s.pending ∧ (stateEcho b s).straps = s.straps ∧ (stateEcho b s).ref = s.ref ∧
    (stateEcho b s).script = s.script ∧ (stateEcho b s).pacing = s.pacing ∧ (stateEcho b s).station = s.station ∧
    (stateEcho b s).openOrders = s.openOrders := by simp [stateEcho]

@[simp] theorem deliverEcho_frame (sent : Sent) (s : State) :
    (deliverEcho sent s).pending = s.pending ∧ (deliverEcho sent s).straps = s.straps ∧ (deliverEcho sent s).ref = s.ref ∧
    (deliverEcho sent s).script = s.script ∧ (deliverEcho sent s).station = s.station ∧
    (deliverEcho sent s).openOrders = s.openOrders := by
  simp only [deliverEcho]; (repeat' split) <;> simp

@[simp] theorem echoAct_frame (q : QPacket) (sent : Sent) (s : State) :
    (echoAct q sent s).pending = s.pending ∧ (echoAct q sent s).straps = s.straps ∧ (echoAct q sent s).ref = s.ref ∧
    (echoAct q sent s).script = s.script ∧ (echoAct q sent s).station = s.station ∧ (echoAct q sent s).openOrders = s.openOrders := by
  simp only [echoAct]; (repeat' split) <;> simp

@[simp] theorem ownerStops_frame (k : PacketKind) (s : State) :
    (ownerStops k s).pending = s.pending ∧ (ownerStops k s).straps = s.straps ∧ (ownerStops k s).ref = s.ref ∧
    (ownerStops k s).text = s.text ∧ (ownerStops k s).script = s.script ∧ (ownerStops k s).timer = s.timer ∧
    (ownerStops k s).map = s.map ∧ (ownerStops k s).floor = s.floor ∧ (ownerStops k s).pacing = s.pacing ∧
    (ownerStops k s).line = s.line ∧ (ownerStops k s).station = s.station ∧ (ownerStops k s).report = s.report ∧
    (ownerStops k s).openOrders = s.openOrders := by
  unfold ownerStops; split <;> simp

@[simp] theorem removedAtStop_frame (k : PacketKind) (s : State) :
    (removedAtStop k s).pending = s.pending ∧ (removedAtStop k s).straps = s.straps ∧ (removedAtStop k s).ref = s.ref ∧
    (removedAtStop k s).text = s.text ∧ (removedAtStop k s).script = s.script ∧ (removedAtStop k s).timer = s.timer ∧
    (removedAtStop k s).map = s.map ∧ (removedAtStop k s).floor = s.floor ∧ (removedAtStop k s).pacing = s.pacing ∧
    (removedAtStop k s).line = s.line ∧ (removedAtStop k s).station = s.station ∧ (removedAtStop k s).report = s.report ∧
    (removedAtStop k s).openOrders = s.openOrders := by
  unfold removedAtStop; split <;> simp

@[simp] theorem stopAct_frame (q : QPacket) (s : State) :
    (stopAct q s).pending = s.pending ∧ (stopAct q s).straps = s.straps ∧ (stopAct q s).ref = s.ref ∧
    (stopAct q s).script = s.script ∧ (stopAct q s).map = s.map ∧ (stopAct q s).pacing = s.pacing ∧
    (stopAct q s).station = s.station ∧ (stopAct q s).openOrders = s.openOrders := by
  simp only [stopAct]; (repeat' split) <;> simp

end Sys2Proof.Machine
end

