-- ==== Sys2Proof/Laws/Ops.lean ====
section
/-! SUPPORT. What the shared operations answer: one lemma for each thing an operation can do, for the provers to cite. -/

namespace Sys2Proof.Machine

/-! ### Reports and flags -/

theorem raise_has_self (f : Sticky) (u : Flags) : (u.raise f).has f = true := by cases f <;> rfl

theorem raise_has_of_has {f g : Sticky} {u : Flags} (h : u.has g = true) : (u.raise f).has g = true := by
  cases f <;> cases g <;> simp_all [Flags.raise, Flags.has]

/-- A report queued stands at the tail, behind the queue as it was or less its second line. -/
theorem pushReport_queue (r : Report) (s : State) :
    (pushReport r s).report.queue = (makeReportRoom s.report).queue ++ [r] := rfl

theorem makeReportRoom_queue_length (u : ReportUnit) (h : u.queue.length ≤ reportCapacity) :
    (makeReportRoom u).queue.length < reportCapacity := by
  have hc : reportCapacity = 32 := rfl
  unfold makeReportRoom
  split
  · have : 1 < u.queue.length := by omega
    simp [List.length_eraseIdx, this]; omega
  · omega

theorem pushReport_has {f : Sticky} {r : Report} {s : State} (h : s.report.flags.has f = true) :
    (pushReport r s).report.flags.has f = true := by
  show (makeReportRoom s.report).flags.has f = true
  unfold makeReportRoom
  split
  · exact raise_has_of_has h
  · exact h

/-- Reports change the Report Unit alone. -/
theorem pushReports_eq (l : List Report) (s : State) :
    pushReports l s = { s with report := (pushReports l s).report } := by
  induction l generalizing s with
  | nil => rfl
  | cons r rs ih => simp only [pushReports]; rw [ih]; simp

theorem pushReports_report_congr (l : List Report) {s t : State} (h : s.report = t.report) :
    (pushReports l s).report = (pushReports l t).report := by
  induction l generalizing s t with
  | nil => exact h
  | cons r rs ih => simp only [pushReports]; exact ih (by simp [pushReport, State.modReport, h])

/-! ### Hearing a packet (R143 to R147) -/

theorem hear_delivered {p : Nat} {k : Packet} {f : State → State} {s : State} (h : Delivered p k s) :
    hear p k f s = f (s.hearing p) := by
  obtain ⟨h1, h2, h3⟩ := h
  have hm : markHeard p (endReception s) = s.hearing p := by
    simp [markHeard, endReception, State.hearing, setPeer, State.modLine]
  have h4 : ¬ p = (endReception s).own := h2
  have h5 : packetFits (s.hearing p) k = true := by rw [← h3]; cases k <;> rfl
  simp only [hear, h1, h4, if_true, if_false, hm, h5]

theorem hear_invalid {p : Nat} {k : Packet} {f : State → State} {s : State} (h : packetValid p k = false) :
    hear p k f s = discardPacket s := by simp [hear, h]

theorem hear_twin {k : Packet} {f : State → State} {s : State} (h : packetValid s.own k = true) :
    hear s.own k f s = if s.station.mode = .mute then endReception s else enterMute (endReception s) := by
  have h2 : s.own = (endReception s).own := rfl
  simp only [hear, h, if_true, ← h2, if_true]
  rfl

@[simp] theorem hearing_frame (p : Nat) (s : State) :
    (s.hearing p).pending = s.pending ∧ (s.hearing p).straps = s.straps ∧ (s.hearing p).ref = s.ref ∧
    (s.hearing p).text = s.text ∧ (s.hearing p).script = s.script ∧ (s.hearing p).timer = s.timer ∧
    (s.hearing p).claims = s.claims ∧ (s.hearing p).map = s.map ∧ (s.hearing p).floor = s.floor ∧
    (s.hearing p).pacing = s.pacing ∧ (s.hearing p).item = s.item ∧ (s.hearing p).station = s.station ∧
    (s.hearing p).report = s.report ∧ (s.hearing p).openOrders = s.openOrders := by simp [State.hearing]

/-! ### Text -/

theorem joinLastRow_hasWord (w : TextWord) (l : List (List TextWord)) :
    (joinLastRow w l).any (fun r => !r.isEmpty) = true := by
  induction l with
  | nil => simp [joinLastRow]
  | cons r rs ih =>
    cases rs with
    | nil => simp [joinLastRow]
    | cons q qs => simp only [joinLastRow, List.any_cons, ih, Bool.or_true]

theorem opened_hasWord (k : Nat) (b : Bool) (w : TextWord) : (Text.opened k b w).hasWord = true := by
  unfold Text.opened
  split
  · split <;> simp [Text.hasWord]
  · simp [Text.hasWord]

/-- A word placed leaves the open block with a word, whichever way it found its place. -/
theorem placeWord_hasWord (w : TextWord) (a : Frame) (s : State) : (placeWord w a s).text.openText.hasWord = true := by
  unfold placeWord openBlock
  split
  · simp [State.modText, opened_hasWord]
  · split <;> simp only [State.modText, opened_hasWord]
    · exact joinLastRow_hasWord _ _
    · simp [Text.withRow, Text.hasWord]

theorem closeOpen_empty {cause : CloseCause} {s : State} (h : s.text.composeEmpty = true) : closeOpen cause s = s := by
  simp [BlockBuilder.composeEmpty] at h
  simp [closeOpen, completeWord, h.1, BlockBuilder.composeEmpty, h]

theorem closeOpen_nonempty {cause : CloseCause} {s : State} (h : s.text.composeEmpty = false) :
    closeOpen cause s = closeBlock cause (completeWord s) := by
  have : (completeWord s).text.composeEmpty = false := by
    unfold completeWord
    split
    · exact h
    · simp [BlockBuilder.composeEmpty, placeWord_hasWord]
  simp [closeOpen, this]

/-- A laid text holds a word exactly when it has rows. -/
theorem hasWord_of_laid {width : Nat} {t : Text} (h : t.LaidOrNone width) : t.hasWord = !t.rows.isEmpty := by
  rcases h with h | ⟨h1, _, _, h4⟩
  · simp [Text.hasWord, h]
  · have hne : t.rows ≠ [] := by rintro h; rw [h] at h1; simp at h1
    have hl : t.rows.getLast hne ≠ [] := by
      intro hh; apply h4; rw [List.getLast?_eq_getLast_of_ne_nil hne, hh]
    simp only [Text.hasWord]
    rw [List.any_eq_true.mpr ⟨t.rows.getLast hne, List.getLast_mem hne, by simpa using hl⟩]
    simpa using hne

/-! ### The queue of blocks -/

theorem dropOverflow_room {s : State} (h : s.text.queue.length < blockCapacity) : dropOverflow s = s := by
  unfold dropOverflow
  split
  · rw [if_neg (by omega)]
  · rfl

theorem dropOverflow_full {s : State} {b : Block} {rest : List Block} (hq : s.text.queue = b :: rest)
    (h : blockCapacity ≤ s.text.queue.length) :
    dropOverflow s = pushReport (.dropped .overflow (some b.seq))
      (((s.modText fun t => { t with queue := rest }).modTimer fun t => { t with hold := false }).flag .queueOverflow) := by
  unfold dropOverflow
  rw [hq] at h ⊢
  simp only
  rw [if_pos h]

/-! ### The Transmit Queue -/

/-- A YIELD owed and nowhere in hand is asked for; otherwise nothing is. -/
theorem queueYield_cases (s : State) :
    (s.floor.yieldOwed = true ∧ hasPacket PacketKind.isYield s = false ∧ queueYield s = requestPacket .yield s) ∨
    ((s.floor.yieldOwed = false ∨ hasPacket PacketKind.isYield s = true) ∧ queueYield s = s) := by
  unfold queueYield
  split
  · rename_i h; exact .inl ⟨h.1, h.2, rfl⟩
  · rename_i h
    refine .inr ⟨?_, rfl⟩
    cases h1 : s.floor.yieldOwed <;> cases h2 : hasPacket PacketKind.isYield s <;> simp_all

/-! ### Bounds of cues -/

/-- A frame after another is not before it: the distance back is negative. -/
theorem frameDist_back {day a b : Nat} (h : 0 < frameDist day a b) : frameDist day b a < 0 := by
  rcases Nat.eq_zero_or_pos day with rfl | hd
  · simp only [frameDist] at h
    split at h <;> simp_all [frameDist]
  · simp only [frameDist] at h ⊢
    have h0 := Int.emod_nonneg ((b : Int) - a) (b := day) (by omega)
    have h1 := Int.emod_lt_of_pos ((b : Int) - a) (b := day) (by omega)
    have hx : 0 < ((b : Int) - a) % day := by split at h <;> omega
    have he : ((a : Int) - b) % day = day - ((b : Int) - a) % day := by
      rw [← Int.neg_sub (b : Int) a, Int.neg_emod, if_neg]
      · omega
      · intro hdvd; have := Int.emod_eq_zero_of_dvd hdvd; omega
    rw [he]
    split at h <;> split <;> omega

/-- Of two frames the earlier is one of them, and is not after the second. -/
theorem earlierOf_spec (day a b : Nat) :
    (earlierOf day a b = a ∨ earlierOf day a b = b) ∧ isAfter day b (earlierOf day a b) = false := by
  unfold earlierOf
  split
  · rename_i h
    have := frameDist_back (by simpa [isAfter] using h)
    exact ⟨.inl rfl, by simp [isAfter]; omega⟩
  · exact ⟨.inr rfl, by simp [isAfter, frameDist]; split <;> omega⟩

/-- A bound brought earlier stays so under the clamp: it is set to the frame found, to n + 1 or to the bound held, and never after
the bound held (R94, R96). -/
theorem clampBound_spec (day n held f : Nat) (h : isAfter day held f = false) :
    (clampBound day n held f = f ∨ clampBound day n held f = (n + 1) % day ∨ clampBound day n held f = held) ∧
    isAfter day held (clampBound day n held f) = false := by
  unfold clampBound
  split
  · obtain ⟨h1, h2⟩ := earlierOf_spec day ((n + 1) % day) held
    exact ⟨.inr h1, h2⟩
  · exact ⟨.inl rfl, h⟩

/-! ### Claims -/

/-- A list of claims splits into those handed back, all PLANNED, and the others. -/
theorem plannedFrom_split (p : Claim → Bool) (l : List Claim) :
    (∀ c, c ∈ l ↔ c ∈ plannedFrom p l ∨ c ∈ notPlannedFrom p l) ∧ ∀ c ∈ plannedFrom p l, c.isPlanned = true := by
  induction l with
  | nil => simp [plannedFrom, notPlannedFrom]
  | cons d ds ih =>
    simp only [plannedFrom, notPlannedFrom]
    split
    · rename_i h
      simp at h
      constructor
      · intro c
        cases hc : c.isPlanned <;> simp [hc]
      · intro c hc
        simp at hc
        rcases hc with rfl | hc
        · exact h.1
        · exact hc.2
    · constructor
      · intro c; simp [ih.1 c]; tauto
      · exact ih.2

/-! ### Timing -/

/-- The latest of some candidates is one of them, and none is later. -/
theorem latest_spec (day n : Nat) (l : List Frame) (b : Frame) :
    frameDist day n b ≤ frameDist day n (latest day n b l) ∧
    (∀ f ∈ l, frameDist day n f ≤ frameDist day n (latest day n b l)) ∧
    (latest day n b l = b ∨ latest day n b l ∈ l) := by
  induction l generalizing b with
  | nil => simp [latest]
  | cons f fs ih =>
    simp only [latest]
    split
    · obtain ⟨h1, h2, h3⟩ := ih f
      refine ⟨by omega, ?_, ?_⟩
      · intro g hg
        rcases List.mem_cons.mp hg with rfl | hg
        · exact h1
        · exact h2 g hg
      · rcases h3 with h3 | h3 <;> simp [h3]
    · obtain ⟨h1, h2, h3⟩ := ih b
      refine ⟨h1, ?_, ?_⟩
      · intro g hg
        rcases List.mem_cons.mp hg with rfl | hg
        · omega
        · exact h2 g hg
      · rcases h3 with h3 | h3 <;> simp [h3]

/-! ### The Pacing Set -/

theorem clampTo_range (p : Param) (x : Nat) : p.range.1 ≤ clampTo p.range x ∧ clampTo p.range x ≤ p.range.2 := by
  have : p.range.1 ≤ p.range.2 := by cases p <;> decide
  unfold clampTo
  split
  · omega
  · split <;> omega

end Sys2Proof.Machine
end

