-- ==== Sys2Proof/WellFormed.lean ====
section
/-! DEFINITION. The operands a command may carry: those the event it names can have. A command with others is still given a meaning
(R17, R9 and R144 sort what they carry). -/

namespace Sys2Proof

/-- An assigned control code (11.2). -/
def isAssignedCode (b : Byte) : Bool :=
  [0x01, 0x02, 0x03, 0x04, 0x05, 0x08, 0x0E, 0x0F, 0x10, 0x11, 0x12, 0x13, 0x14, 0x15, 0x16, 0x18, 0x19, 0x1B].contains b

/-- A byte R17 discards: one with a framing error, one in 0x80..0xFF, or an unassigned control code. -/
def isDiscarded (framingError : Bool) (b : Byte) : Bool :=
  framingError || decide (0x80 ≤ b.toNat) || (Machine.isControl b && !isAssignedCode b)

/-- The operands are ones the event can have. -/
def Instr.wellFormed : Instr → Bool
  | .character c => Machine.isCharacter c
  | .discardedByte framingError b => isDiscarded framingError b
  | .peerSilent peer => Machine.isStation peer
  | .cuePacket sender body => Machine.packetValid sender (.cue body)
  | .revisePacket sender body => Machine.packetValid sender (.revise body)
  | .cutPacket sender seq off => Machine.packetValid sender (.cut seq off)
  | .plainTake sender => Machine.packetValid sender (.take false)
  | .forcedTake sender => Machine.packetValid sender (.take true)
  | .yieldPacket sender successor => Machine.packetValid sender (.yield successor)
  | .itemPacket sender boundary number => Machine.packetValid sender (.item boundary number)
  | .statePacket sender body => Machine.packetValid sender (.state body)
  | .timecodeValue h m sec f => decide (h < 100) && decide (m < 100) && decide (sec < 100) && decide (f < 100)
  | .powerOn _ _ | .referencePulse _ | .flywheelExpiry | .guardWindowOpen | .timecodeLost | .peerTimeSilenceExpiry
  | .endBlock | .speaker | .retract | .scriptBegin | .scriptEnd | .loopOn | .loopOff | .next | .take | .yield | .park
  | .unpark | .hold | .release | .status | .reset | .paceIntroducer | .paceTerminator | .idleClose | .yieldDeadline
  | .bidWaitExpiry | .stateDue | .mismatchCountExpiry | .joinWaitExpiry | .resetCountExpiry | .resetDrained
  | .deferredPark | .itemContactClose | .lineIdle _ | .transmissionStart _ | .packetEcho | .readbackMismatch
  | .waitingRequestEntry | .cutShortPacket | .discardedPacket | .reportLineSent | .lineBusy => true

end Sys2Proof
end

