-- ==== Sys2Proof/Tests/Slice0.lean ====
section
/-! SUPPORT. Small checks of the model: ill-formed operands refused, bytes decoded, worked figures of the manual, and states that meet
the hypotheses of the statements. -/

namespace Sys2Proof.Tests

open Sys2Proof Sys2Proof.Machine

/-! ### Small states -/

/-- A station right after power-on (number 16, F = 30, R = 3, W = 42) put in a mode and a floor state with a view. -/
def station (m : Mode) (f : FloorState) (h q : Option Nat) : State :=
  { State.reset with
    station := { State.reset.station with mode := m }
    floor := { State.reset.floor with state := f, holder := h, successor := q } }

/-- A station in ACTIVE that holds the floor. -/
def live : State := station .active .live (some 16) none

def word : TextWord := [0x48, 0x49]

def text : Text := { rows := [[word, word]], speaker := false }

def single : Text := { rows := [[word]], speaker := false }

def block (q : Byte) (t : Text) : Block :=
  { seq := q, text := t, arrival := 0, closeFrame := 0, cause := .finish, item := 0, source := .live }

def claim (q : Byte) (st : ClaimState) (at_ : Frame) (t : Text) : Claim :=
  { seq := q, low := 1, count := 1, showAt := at_, minOff := at_ + 40, lingerOff := at_ + 250, gap := 2, text := t,
    source := .live, item := 0, arrival := 0, closeFrame := 0, cause := .finish, state := st, revision := none,
    withdrawal := none, emptied := false }

def cue (owner : Nat) (q : Byte) (at_ : Frame) : Cue :=
  { owner := owner, seq := q, showAt := at_, minOff := at_ + 40, lingerOff := at_ + 250, offBound := at_ + 250, gap := 2,
    low := 1, count := 1 }

def cueBody (q : Byte) (at_ : Frame) : CueBody :=
  { seq := q, low := 1, count := 1, showAt := at_, minOff := at_ + 40, lingerOff := at_ + 250, gap := 2, item := 0,
    speaker := false, source := .live, rows := [[0x48, 0x49]] }

def stateBody (st : TimeStatus) (f : FloorState) : StateBody :=
  { status := st, rate := 30, displayRows := 3, width := 42, frame := 100, floor := f, holder := none, item := 7,
    claims := [{ seq := 1, low := 1, count := 1, showAt := 200, minOff := 240, offBound := 400 }] }

/-- The state with a packet at the head of its Transmit Queue, on an IDLE line. -/
def ready (k : PacketKind) (s : State) : State :=
  { s with line := { s.line with idle := true, queue := [.fresh k] } }

/-- The state with a packet in transmission. -/
def sending (k : PacketKind) (p : Packet) (t : Text) (s : State) : State :=
  { s with line := { s.line with queue := [{ QPacket.fresh k with sent := some { packet := p, text := t } }] } }

theorem defaults_legal : Params.defaults.Legal := ⟨by intro p; cases p <;> decide, by decide⟩

/-! ### Ill-formed operands are refused, one for each check -/

theorem test_wf_character : (Instr.character 0x1F).wellFormed = false ∧ (Instr.character 0x20).wellFormed = true := by decide
theorem test_wf_discarded : (Instr.discardedByte false 0x41).wellFormed = false ∧
    (Instr.discardedByte false 0x04).wellFormed = false ∧ (Instr.discardedByte false 0x06).wellFormed = true := by decide
theorem test_wf_peer : (Instr.peerSilent 17).wellFormed = false ∧ (Instr.peerSilent 16).wellFormed = true := by decide
theorem test_wf_sender : (Instr.plainTake 0).wellFormed = false ∧ (Instr.forcedTake 17).wellFormed = false := by decide
theorem test_wf_successor : (Instr.yieldPacket 1 (some 17)).wellFormed = false := by decide
theorem test_wf_frame : (Instr.cutPacket 1 0 16777216).wellFormed = false ∧
    (Instr.itemPacket 1 16777216 0).wellFormed = false := by decide
theorem test_wf_span : (Instr.cuePacket 1 { cueBody 1 9 with count := 3, rows := [[0x48], [0x48], [0x48]] }).wellFormed = false ∧
    (Instr.cuePacket 1 { cueBody 1 9 with low := 16 }).wellFormed = false := by decide
theorem test_wf_gap : (Instr.cuePacket 1 { cueBody 1 9 with gap := 4 }).wellFormed = false := by decide
theorem test_wf_rows : (Instr.revisePacket 1 { cueBody 1 9 with rows := [] }).wellFormed = false ∧
    (Instr.revisePacket 1 { cueBody 1 9 with rows := [[]] }).wellFormed = false := by decide
theorem test_wf_state : (Instr.statePacket 1 { stateBody .anchored .idle with holder := some 17 }).wellFormed = false ∧
    (Instr.statePacket 1 { stateBody .anchored .idle with
      claims := List.replicate 5 { seq := 1, low := 1, count := 1, showAt := 2, minOff := 3, offBound := 4 } }).wellFormed
      = false := by decide
theorem test_wf_timecode : (Instr.timecodeValue 100 0 0 0).wellFormed = false := by decide

/-! ### Bytes: the text port (11.2), the CRC (R170) and packets (11.1), written out from the manual -/

theorem test_byte_table : decodeTextByte false 0x04 = .endBlock ∧ decodeTextByte false 0x08 = .retract ∧
    decodeTextByte false 0x0E = .next ∧ decodeTextByte false 0x11 = .take ∧ decodeTextByte false 0x19 = .paceTerminator ∧
    decodeTextByte false 0x1B = .reset ∧ decodeTextByte false 0x7E = .character 0x7E := by decide
theorem test_byte_discarded : decodeTextByte false 0x7F = .discardedByte false 0x7F ∧
    decodeTextByte false 0x80 = .discardedByte false 0x80 ∧ decodeTextByte true 0x41 = .discardedByte true 0x41 := by decide
/-- R170's own check value: the CRC of the ASCII digits 1 to 9. -/
theorem test_crc : crc [0x31, 0x32, 0x33, 0x34, 0x35, 0x36, 0x37, 0x38, 0x39] = 0x29B1#16 := by decide +kernel
theorem test_cut_body : readBody 0x01 [0x05, 0x00, 0x4E, 0x20] = some (.cut 5 20000) := by decide
theorem test_take_reads_bit_0 : readBody 0x04 [0x02] = some (.take false) ∧ readBody 0x04 [0x03] = some (.take true) := by decide
theorem test_yield_17_is_none : readBody 0x05 [0x11] = some (.yield none) := by decide
theorem test_item_body : readBody 0x06 [0x00, 0x4E, 0x20, 0x07] = some (.item 20000 7) := by decide
theorem test_bad_length : readBody 0x06 [0x00, 0x4E, 0x20] = none ∧ readBody 0x08 [] = none := by decide
theorem test_line_take : decodeLine (Packet.bytes 3 (.take true)) = .forcedTake 3 := by decide +kernel
theorem test_line_no_sync : decodeLine [0xA5, 0x03, 0x04, 0x01, 0x00, 0x00, 0x00] = .cutShortPacket := by decide
theorem test_line_bad_crc : decodeLine [0xA6, 0x03, 0x04, 0x01, 0x00, 0x00, 0x00] = .discardedPacket := by decide +kernel
theorem test_no_table_word : decodeTableWord 8 1 = none ∧ State.reset.withFetchWord 8 1 = State.reset := by decide

/-! ### Figures the manual works out -/

/-- R2's example: from 2,159,950 to 20 at F = 25 is +70. -/
theorem test_distance : frameDist 2160000 2159950 20 = 70 := by decide
/-- R60's examples: c = 64 and c = 30 at F = 25 and r = 150. -/
theorem test_base_duration : baseDuration 64 25 150 = 107 ∧ baseDuration 30 25 150 = 50 := by decide
theorem test_placement : chooseLow { live with pacing := { live.pacing with active := { Params.defaults with placement := 1 } } } 2
    = 2 := by decide
theorem test_slot : slotOf live (.fresh .item) = 16 + 15 := by decide
theorem test_number : numberOf 0 [0x30, 0x31, 0x32] = some 12 := by decide
theorem test_evicts_earliest_bound : pickEvicted 2592000 0 [cue 3 1 20, { cue 2 1 20 with offBound := 90 }] =
    some { cue 2 1 20 with offBound := 90 } := by decide

/-- R174's two example lines. -/
theorem test_claimed_line : (Report.claimed 88 1 2 10022 10108 10272).line =
    ascii "CLAIMED 88 1-2 10022 10108 10272" ++ [0x0D, 0x0A] := by decide +kernel
theorem test_status_line : (Report.status
    { mode := .active, floor := .live, holder := some 3, pace := .catchUp, time := .following, locked := true, n := 40125,
      blocks := 2, packets := 1, claims := 3, notOnAir := 1, entries := [2, 2, 0], item := 13,
      flags := { Flags.clear with refLost := true, timeStep := true, lineFault := true } }).line =
    ascii "STATUS ACTIVE LIVE 3 CATCH_UP FOLLOWING LOCKED 40125 2 1 3 1 2/2/0 13 REF_LOST,TIME_STEP,LINE_FAULT" ++
      [0x0D, 0x0A] := by decide +kernel

/-! ### Single steps -/

/-- The state after a command. -/
def after (i : Instr) (s : State) : State :=
  match exec i s with
  | .next t => t
  | _ => s

/-- R116 and R125: a TAKE bids, and the act's FLOOR report is queued. -/
theorem test_take : let t := after .take (station .active .idle none none)
    t.floor.state = .bidding ∧ t.line.queue = [.fresh (.take false)] ∧ t.report.queue = [.floor .bidding none] := by decide
/-- R116: a TAKE in JOINING is refused. -/
theorem test_take_refused : (after .take State.reset).report.queue = [.refused] := by decide
/-- R9: the frame after 00:00:01:00 at F = 30. -/
theorem test_timecode : (after (.timecodeValue 0 0 1 0)
    { State.reset with straps := { allStrapsOpen with follow := false } }).ref.pendingLoad = some 31 := by decide
/-- R163 and R89: the off frames of 10.4, counted from n. -/
theorem test_reset_cuts : (after .reset
    { live with claims := [claim 30 .onAir 0 text, claim 31 .claimed 40 text, claim 32 .planned 90 text] }).line.queue.map
      QPacket.kind = [.cut 30 4, .cut 31 40] := by decide
/-- R137: a duplicate two frames off leaves the item number. -/
theorem test_item_duplicate : (after (.itemPacket 1 12 7)
    { live with item := { live.item with lastBoundary := some 10 } }).item.number = 0 := by decide
/-- R111: a LIVE station that hears a plain TAKE yields, with the bidder its successor. -/
theorem test_take_heard : let t := after (.plainTake 1) { live with text := { live.text with word := [0x41] } }
    t.floor.state = .yielding ∧ t.floor.successor = some 1 := by decide
/-- R102: a CUT at the show takes the cue away, one frame later it only bounds it. -/
theorem test_cut : (after (.cutPacket 1 1 20) { live with map := [cue 1 1 20] }).map = [] ∧
    ((after (.cutPacket 1 1 21) { live with map := [cue 1 1 20] }).map.map Cue.offBound) = [21] := by decide

/-- R94: a CUE that comes after its linger-off, with a later cue on its row, is not kept. -/
theorem test_late_cue_leaves : (after (.cuePacket 1 { cueBody 1 100 with minOff := 120, lingerOff := 140 })
    { live with ref := { live.ref with n := 150 }, map := [cue 2 1 160] }).map = [cue 2 1 160] := by decide
/-- R156: a STATE due while one waits leaves one, in its turn. -/
theorem test_state_replaced :
    let waiting : List QPacket := [{ QPacket.fresh .state with attempts := 3 }, .fresh .item]
    let t := after .stateDue { live with line := { live.line with
      phase := 30, queue := List.replicate 7 (.fresh .item), waiting := waiting } }
    t.line.waiting = [.fresh .state, .fresh .item] ∧ t.line.queue.length = 7 := by decide
/-- R82: an own cue CLAIMED at show 30 that loses to a peer's earlier one ends with OFF, and a CUT at its show is queued. -/
theorem test_conflict_loss :
    let t := after (.cuePacket 1 (cueBody 1 20))
      { live with claims := [claim 5 .claimed 30 text], map := [cue 16 5 30] }
    t.claims = [] ∧ t.map = [cue 1 1 20] ∧ t.line.queue = [.fresh (.cut 5 30)] ∧ t.report.queue = [.off 5 0] := by decide
/-- R13 and R15: a phase load from 0 to 100 flags TIME_STEP and puts the claim stepped over on air. -/
theorem test_phase_load_steps :
    let t := after (.statePacket 1 { stateBody .anchored .idle with claims := [] })
      { live with claims := [claim 5 .claimed 30 text], map := [cue 16 5 30] }
    t.n = 100 ∧ t.report.flags.has .timeStep = true ∧ t.claims.map Claim.state = [.onAir] ∧ t.report.queue = [.onAir 5 100] := by
  decide
/-- R69: an ITEM taken in MUTE leaves the pace state. -/
theorem test_mute_keeps_pace : let s : State := { station .mute .idle none none with timer := { pace := .catchUp, hold := false } }
    (after (.itemPacket 1 12 7) s).timer.pace = .catchUp ∧ (after (.itemPacket 1 12 7) s).item.number = 7 := by decide
/-- R120: a YIELD given up from a queue of 7 takes the free place again, before a block is planned. -/
theorem test_yield_queued_anew : let s : State := { station .active .yielding (some 16) none with
      text := { State.reset.text with queue := [block 1 text] } }
    let sent : QPacket := { QPacket.fresh .yield with attempts := 15, sent := some { packet := .yield none, text := .empty } }
    let six : List QPacket := List.replicate 6 (.fresh .item)
    let t := after .readbackMismatch
      { s with floor := { s.floor with yieldOwed := true }, line := { s.line with queue := sent :: six } }
    t.line.queue = six ++ [.fresh .yield] ∧ t.claims = [] := by decide
/-- R153 and R159: a packet in transmission at RESET that stops for the sixteenth time is given up with LINE_FAULT; before
that it is removed without. -/
theorem test_sixteenth_stop : let left := fun k => after .readbackMismatch { live with line := { live.line with
      queue := [{ QPacket.fresh (.cut 1 20) with
        attempts := k, mark := .inFlight, sent := some { packet := .cut 1 20, text := .empty } }] } }
    (left 15).report.flags.has .lineFault = true ∧ (left 14).report.flags.has .lineFault = false ∧
    (left 15).line.queue = [] ∧ (left 14).line.queue = [] := by decide

/-! ### States that meet the hypotheses of the statements, clause by clause -/

/-- A full word of W = 42 characters. -/
def wide : TextWord := List.replicate 42 0x48

/-- A station in ACTIVE with this in its Block Builder. -/
def typing (w : TextWord) (rows : List (List TextWord)) (q : List Block) : State :=
  { live with text := { live.text with word := w, openText := { rows := rows, speaker := false }, queue := q } }

/-- A station in ACTIVE with these claims. -/
def claiming (f : FloorState) (l : List Claim) : State := { station .active f none none with claims := l }

theorem witness_StepTakesFrontCommand :
    ({ State.reset with pending := [.take] } : State).pending = .take :: [] ∧ State.reset.pending = [] := by decide

theorem witness_StrapsReadAtPowerOn : (∃ t, exec (.powerOn allStrapsOpen 5) State.reset = .next t) ∧
    (∃ t, exec .hold State.reset = .next t ∧ ∀ pins m, Instr.hold ≠ .powerOn pins m) ∧
    autoTakeDue { station .active .idle none none with text := (typing [] [] [block 1 text]).text } = true :=
  ⟨⟨_, rfl⟩, ⟨_, rfl, by simp⟩, by decide⟩

theorem witness_MuteLasts : let s := station .mute .idle none none
    s.station.mode = .mute ∧ s.floor.parkOwed = false ∧ s.floor.state = .idle ∧
    ∃ t, exec .park s = .next t ∧ ∀ pins m, Instr.park ≠ .powerOn pins m :=
  ⟨rfl, rfl, rfl, _, rfl, by simp⟩

theorem witness_DistanceIsSigned : 0 < 2160000 ∧ 2160000 % 2 = 0 := by decide

/-- The two sides of half a period, 50,000 ticks at F = 30. -/
theorem witness_PulsesMakeBoundaries : State.reset.period ≤ 2 * (50000 - State.reset.ref.refInstant) ∧
    2 * (49999 - State.reset.ref.refInstant) < State.reset.period := by decide

/-- A claim due at n = 0 and one due a frame later, whose cues stand; one whose cue ends at n; a block aged Lmax and one frame
more; and the idle count one below Pi. -/
theorem witness_BoundaryAirsAndExpires :
    (∃ c ∈ (showAndExpire false (claiming .live [claim 1 .claimed 0 text])).claims, c.state = .onAir) ∧
    (∃ c ∈ (showAndExpire true (claiming .live [claim 1 .claimed 1 text])).claims, c.state = .claimed) ∧
    (let s : State := { claiming .live [claim 1 .claimed 0 text, claim 2 .claimed 1 text, claim 3 .planned 3 text] with
      map := [cue 16 1 0, cue 16 2 1] }
    (s.claims.map Claim.seq).Nodup ∧ (∀ d ∈ s.map, s.dist d.offBound s.n < 0) ∧
      (claim 3 .planned 3 text).state = .planned ∧ s.dist s.n 3 < 4) ∧
    (let s := claiming .live [claim 2 .planned 1 text, claim 1 .onAir 0 text]
    s.claims = [claim 2 .planned 1 text] ++ claim 1 .onAir 0 text :: [] ∧ (∀ c ∈ s.claims, c.state ≠ .claimed)) ∧
    (let d := { cue 16 1 0 with offBound := 0 }
    d.owner = live.own ∧ d.seq = (claim 1 .onAir 0 text).seq ∧ 0 ≤ live.dist d.offBound live.n) ∧
    (let s := typing [] [[word]] [block 1 text]
    s.text.composeEmpty = false ∧ live.text.composeEmpty = true ∧ live.pacing.active.pi = 50 ∧
      ¬ (s.pacing.active.lmax : Int) < live.dist (live.day - 375) live.n ∧
      (s.pacing.active.lmax : Int) < live.dist (live.day - 376) live.n) := by decide

theorem witness_TimeEventsSetStatus :
    (let s : State := { State.reset with
      straps := { allStrapsOpen with follow := false }, ref := { State.reset.ref with status := .anchored } }
    s.straps.follow = false ∧ 10 ≤ s.ref.tcSilence ∧ s.ref.status = .anchored) ∧
    (let s : State := { State.reset with ref := { State.reset.ref with status := .following } }
    3 * s.fps ≤ s.ref.peerSilence ∧ s.ref.status = .following) := by decide

theorem witness_CharacterJoinsWord :
    (let s := typing (List.replicate 41 0x48) [] []
    TextReady s ∧ isCharacter 0x41 = true ∧ (0x41 : Byte) ≠ spaceByte ∧ s.text.word.length < s.rowWidth) ∧
    (let s := typing [] [] []
    TextReady s ∧ isCharacter spaceByte = true ∧ s.text.word = []) := by unfold TextReady; decide

theorem witness_WordCompletes :
    (let s := typing word [] []
    TextReady s ∧ isCharacter spaceByte = true ∧ s.text.word ≠ []) ∧
    (let s := typing wide [] []
    TextReady s ∧ isCharacter 0x41 = true ∧ s.text.word ≠ [] ∧ s.rowWidth ≤ s.text.word.length) := by
  unfold TextReady; decide

theorem witness_WordsFillRows : (typing [] [] []).text.openText.rows = [] ∧
    (typing [] [[word]] []).text.openText.rows = [[word]] ∧
    (let s := typing [] [[word], [word]] []
    s.text.openText.rows = [[word], [word]] ∧ (joinWords [word]).length + 1 + word.length ≤ s.rowWidth) ∧
    (let s := typing [] [[word], [word]] []
    s.rowWidth < (joinWords [word]).length + 1 + wide.length) := by decide

theorem witness_CloseEntersQueue : (typing [] [[word]] (List.replicate 15 (block 1 text))).text.queue.length < 16 ∧
    (let s := typing [] [[word]] (List.replicate 16 (block 1 text))
    s.text.queue = block 1 text :: List.replicate 15 (block 1 text) ∧ 16 ≤ s.text.queue.length) := by decide

theorem witness_CodesCloseOpenBlock : TextReady (typing word [[word]] []) ∧
    (let s : State := { typing word [[word]] [] with text := { (typing word [[word]] []).text with idleCount := 50 } }
    s.text.composeEmpty = false ∧ s.pacing.active.pi ≤ s.text.idleCount) := by unfold TextReady; decide

theorem witness_RetractTakesLastWord : [word] ≠ [] ∧
    (let s := typing word [] []
    TextReady s ∧ s.text.word ≠ []) ∧
    (let s := typing [] [[word, word]] []
    TextReady s ∧ s.text.word = [] ∧ s.text.openText.retracted.hasWord = true ∧ s.text.openText.hasWord = true) ∧
    (let s := typing [] [[word]] []
    TextReady s ∧ s.text.word = [] ∧ s.text.openText.retracted.hasWord = false ∧ s.text.openText.hasWord = true) ∧
    (let s := typing [] [] [block 1 text]
    TextReady s ∧ s.text.composeEmpty = true ∧ s.text.queue = [] ++ [block 1 text] ∧ text.retracted.hasWord = true) ∧
    (let s := typing [] [] [block 1 single]
    TextReady s ∧ s.text.composeEmpty = true ∧ s.text.queue = [] ++ [block 1 single] ∧ single.retracted.hasWord = false) := by
  unfold TextReady; decide

theorem witness_RetractReachesClaims :
    (let s := claiming .live []
    TextReady s ∧ s.text.composeEmpty = true ∧ s.text.queue = [] ∧ newestClaim s.claims = none) ∧
    (newestClaim (claiming .live [claim 1 .planned 6 text]).claims = some (claim 1 .planned 6 text)) ∧
    (text.retracted.hasWord = true ∧ single.retracted.hasWord = false) ∧
    (let s := claiming .live [claim 1 .claimed 4 text]
    newestClaim s.claims = some (claim 1 .claimed 4 text) ∧ s.dist s.n 4 < 5) ∧
    (let s := claiming .live [claim 1 .claimed 5 text]
    newestClaim s.claims = some (claim 1 .claimed 5 text) ∧ 5 ≤ s.dist s.n 5 ∧ s.floor.state = .live ∧
      (∀ q ∈ s.line.queue, q.kind = .revise 1 → q.sent.isSome = true) ∧ (∀ q ∈ s.line.waiting, q.kind ≠ .revise 1)) ∧
    (let s := ready (.revise 1) (claiming .live [claim 1 .claimed 5 text])
    ∃ q ∈ s.line.queue, q.kind = .revise 1 ∧ q.sent = none) := by unfold TextReady; decide

theorem witness_BytesDiscardedOrIgnored : live.station.mode ≠ .resetting ∧
    (station .resetting .idle none none).station.mode = .resetting := by decide

theorem witness_ScriptCodesRunStore :
    (live.station.mode ≠ .resetting ∧ live.script.load = .notLoading) ∧
    (let s : State := { live with script := { live.script with load := .discarding } }
    s.station.mode ≠ .resetting ∧ s.script.load = .discarding) ∧
    (let s : State := { live with script := { live.script with load := .loading } }
    s.station.mode ≠ .resetting ∧ s.script.load = .loading ∧ s.script.loadWord = []) ∧
    (let s : State := { live with script := { live.script with load := .loading, loadWord := word } }
    s.station.mode ≠ .resetting ∧ s.script.load = .loading ∧ s.script.loadWord ≠ []) := by decide

/-- The last character that fits the store, and one more. -/
theorem witness_LoadedWordFitsOrFills :
    (let s : State := { live with script := { live.script with load := .loading, loadWord := word, storedChars := 4094 } }
    s.script.loadWord ≠ [] ∧ s.script.loadText.LaidOrNone s.rowWidth ∧ s.script.storedChars + word.length ≤ 4096 ∧
      s.script.stored.length < 64) ∧
    (let s : State := { live with script := { live.script with load := .loading, loadWord := word, storedChars := 4095 } }
    s.script.loadWord ≠ [] ∧ s.script.loadText.LaidOrNone s.rowWidth ∧ ¬ s.script.storedChars + word.length ≤ 4096) :=
  ⟨⟨by decide, .inl rfl, by decide, by decide⟩, by decide, .inl rfl, by decide⟩

theorem witness_NextReleasesBlock :
    (let s : State := { live with script := { live.script with load := .loading } }
    s.station.mode ≠ .resetting ∧ s.script.load ≠ .notLoading) ∧
    (live.script.load = .notLoading ∧ live.script.stored = []) ∧
    (let s : State := { live with script := { live.script with stored := [text], pointer := 1 } }
    s.script.load = .notLoading ∧ 1 ≤ s.script.pointer ∧ s.script.stored[s.script.pointer - 1]? = some text) ∧
    (let s : State := { live with script := { live.script with stored := [text], pointer := 2 } }
    s.script.stored.length < s.script.pointer ∧ s.script.loop = false) ∧
    (let s : State := { live with script := { live.script with stored := [text], pointer := 2, loop := true } }
    s.script.stored.length < s.script.pointer ∧ s.script.loop = true ∧ s.script.stored[0]? = some text) ∧
    live.text.queue.length < 16 ∧
    (let s := typing [] [] (List.replicate 16 (block 1 text))
    s.text.queue = block 1 text :: List.replicate 15 (block 1 text) ∧ 16 ≤ s.text.queue.length) := by decide

theorem witness_LoadingTextGoesToStore :
    (let s : State := { live with script := { live.script with load := .discarding } }
    s.station.mode ≠ .resetting ∧ s.pacing.command = none ∧ s.script.load ≠ .notLoading ∧ isCharacter 0x7E = true) ∧
    (let loading := fun (w : TextWord) (t : Text) (l : List Text) => ({ live with script := { live.script with
      load := .loading, loadWord := w, loadText := t, stored := l } } : State)
    (∀ s ∈ [loading word single [], loading [] single [], loading [] .empty [text], loading [] .empty [single]],
      s.station.mode ≠ .resetting ∧ s.pacing.command = none ∧ s.script.load = .loading) ∧
    (∀ s ∈ [loading word .empty [], loading wide .empty []], s.script.load = .loading) ∧ word.length < live.rowWidth ∧
    live.rowWidth ≤ wide.length ∧ (0x41 : Byte) ≠ spaceByte ∧
    single.hasWord = true ∧ Text.empty.hasWord = false ∧ text.retracted.hasWord = true ∧ single.retracted.hasWord = false) := by
  decide

theorem witness_LagSetsPaceAndDuration : (1 ≤ 84 ∧ 84 ≤ 84 ∧ 60 ≤ 60 ∧ 60 ≤ 250) ∧ Params.defaults.dmin ≤ Params.defaults.dmax := by
  decide

/-- The claim whose firm end puts the show beyond the horizon, a block too late, and one in time. -/
theorem witness_AttemptHoldsDropsOrPlans : live.pacing.active.dmin ≤ live.pacing.active.dmax ∧
    (let s := claiming .live [claim 1 .planned 459 text]
    500 < s.dist s.n (earliestShow s 1 1)) ∧
    (500 < live.dist live.n 501 ∧ live.dist live.n (earliestShow live 1 1) ≤ 500) ∧
    (live.pacing.active.lmax : Int) < live.dist (live.day - 370) (earliestShow live 1 1) ∧
    live.dist (live.day - 369) (earliestShow live 1 1) ≤ live.pacing.active.lmax ∧
    live.pacing.active.Legal ∧ live.pacing.holding = false ∧ ({ live.pacing with holding := true } : PacingSet).holding = true ∧
    (typing [] [] [block 1 text]).text.queue = block 1 text :: [] :=
  ⟨by decide, by decide, by decide, by decide, by decide, defaults_legal, by decide, by decide, by decide⟩

theorem witness_HandBackKeepsOrder :
    let s := claiming .live [claim 3 .claimed 20 text, claim 1 .planned 60 text, claim 2 .planned 100 text]
    let p := fun c : Claim => decide (c.seq = 1)
    s.claims = [claim 3 .claimed 20 text] ++ claim 1 .planned 60 text :: [claim 2 .planned 100 text] ∧
    (∀ d ∈ [claim 3 .claimed 20 text], ¬ (d.state = .planned ∧ p d = true)) ∧ p (claim 1 .planned 60 text) = true ∧
    s.claims.Nodup ∧ s.text.queue.length + (plannedFrom p s.claims).length ≤ 16 ∧
    (∀ d ∈ s.claims, ¬ (d.state = .planned ∧ decide (d.seq = 3) = true)) := by decide

/-- The command of R130's clamp: the letter R and four digits. -/
theorem witness_PaceCommandIsCollected :
    (let s : State := { live with pacing := { live.pacing with command := some (0x52 :: [0x39, 0x39, 0x39, 0x39]) } }
    s.station.mode ≠ .resetting ∧ s.pacing.command = some (0x52 :: [0x39, 0x39, 0x39, 0x39]) ∧ paramOfLetter 0x52 = some .r ∧
      ∀ d ∈ ([0x39, 0x39, 0x39, 0x39] : List Byte), 0x30 ≤ d.toNat ∧ d.toNat ≤ 0x39) ∧
    (let s : State := { live with pacing := { live.pacing with command := some [0x5A, 0x31] } }
    s.pacing.command = some [0x5A, 0x31] ∧ paramOfLetter 0x5A = none) ∧
    live.pacing.command = none := by decide

theorem witness_WritesAndHolds : live.station.mode ≠ .resetting ∧ live.pacing.holding = false ∧ live.pacing.active.Legal ∧
    (Param.r ≠ .pi ∧ Param.r ≠ .y) ∧ ({ live.pacing with holding := true } : PacingSet).holding = true :=
  ⟨by decide, by decide, defaults_legal, by decide, by decide⟩

/-- Values in their ranges that break all four cross-limits. -/
theorem witness_CrossLimitsMakeLegal : ∀ p : Param,
    p.range.1 ≤ ({ Params.defaults with dmin := 100, dmax := 12, dlin := 12, t := 250, lmax := 25, h := 50 } : Params Nat).get p ∧
    ({ Params.defaults with dmin := 100, dmax := 12, dlin := 12, t := 250, lmax := 25, h := 50 } : Params Nat).get p ≤ p.range.2 := by
  intro p; cases p <;> decide

theorem witness_FloorCodesBidAndYield :
    (let s := station .active .idle none none
    s.station.mode = .active ∧ s.floor.state = .idle) ∧ live.floor.state = .live ∧
    (let s := station .joining .idle none none
    s.station.mode ≠ .resetting ∧ s.station.mode ≠ .active ∧ s.floor.state ≠ .live) := by decide

theorem witness_ParkFollowsMode :
    (station .joining .idle none none).station.mode = .joining ∧ (station .parked .idle none none).station.mode = .parked ∧
    (station .mute .idle none none).station.mode = .mute ∧ (station .active .bidding none none).floor.state = .bidding ∧
    (let s : State := { station .active .idle none none with floor := { State.reset.floor with parkOwed := true } }
    s.floor.parkOwed = true ∧ s.floor.state = .idle) ∧
    (let s : State := { State.reset with station := { State.reset.station with joinCount := 60 } }
    s.station.mode = .joining ∧ 2 * s.fps ≤ s.station.joinCount) := by decide

theorem witness_FloorWaitsExpire :
    (let s : State := { live with floor := { live.floor with state := .yielding, yieldCount := 75 } }
    s.floor.state = .yielding ∧ s.floor.yieldOwed = false ∧ s.pacing.active.y ≤ s.floor.yieldCount) ∧
    (let s : State := { live with floor := { live.floor with state := .bidding, bidRunning := true, bidCount := 105 } }
    s.floor.state = .bidding ∧ s.floor.bidRunning = true ∧ s.pacing.active.y + s.fps ≤ s.floor.bidCount) := by decide

/-- Station 1 present and not heard for 3F = 90 boundaries, with each part in the floor. -/
theorem witness_SilentPeerLosesFloor :
    let quiet := fun s : State => { s with line := { s.line with
      peers := s.line.peers.set 0 { presence := .present, unheard := 90, floor := none, status := none } } }
    (∀ s ∈ [quiet (station .active .bidding (some 1) (some 16)), quiet (station .active .idle (some 1) none),
        quiet (station .active .live (some 16) (some 1)), quiet live],
      1 ≠ s.own ∧ (peerEntry 1 s).presence = .present ∧ 3 * s.fps ≤ (peerEntry 1 s).unheard) := by decide

theorem witness_PlainTakeClaimsView : Delivered 1 (.take false) live ∧ Delivered 15 (.take false) live := by
  unfold Delivered; decide

theorem witness_ForcedTakeTakesFloor : Delivered 1 (.take true) (station .active .idle none none) ∧
    (let s := station .active .bidding none none
    s.floor.state = .bidding ∧ ({ s.floor with takeEchoed := true } : Floor).takeEchoed = true) ∧
    (let s := claiming .live [claim 1 .onAir 0 text, claim 2 .claimed 50 text, claim 3 .planned 100 text]
    Delivered 1 (.take true) s ∧ s.floor.state = .live ∧ s.station.mode = .active ∧
      s.line.queue.length + s.line.waiting.length + s.claims.length ≤ 8 ∧
      (s.claims.map Claim.seq).Nodup) := by unfold Delivered; decide

theorem witness_YieldPacketPassesFloor : Delivered 1 (.yield (some 16)) (station .active .bidding (some 1) (some 16)) ∧
    Delivered 1 (.yield none) live ∧ Delivered 1 (.yield (some 2)) (station .active .idle (some 1) (some 2)) := by
  unfold Delivered; decide

theorem witness_FloorIsGainedAndLeft :
    (station .active .bidding none none).floor.state = .bidding ∧ live.floor.state = .live ∧
    (let s := station .parked .idle none none
    s.floor.state = .idle ∧ s.station.mode ≠ .active) := by decide

theorem witness_StatusIsReported : live.station.mode ≠ .resetting ∧
    (let s : State := { live with report := { live.report with queue := List.replicate 32 .busy } }
    32 ≤ s.report.queue.length ∧ s.report.queue = .busy :: List.replicate 31 .busy) ∧ live.report.queue = [] := by decide

theorem witness_ResetEmptiesStation :
    (let s := claiming .live [claim 1 .onAir 0 text, claim 2 .claimed 50 text]
    s.station.mode ≠ .resetting ∧ s.station.mode ≠ .mute ∧ s.claims.length ≤ 4 ∧
      (s.line.queue.filter QPacket.started).length ≤ 1) ∧
    (let s : State := { station .resetting .idle none none with
      station := { State.reset.station with mode := .resetting, resetCount := 60 } }
    s.station.mode = .resetting ∧ 2 * s.fps ≤ s.station.resetCount ∧ (∀ c ∈ s.claims, c.withdrawal = none) ∧
      ∀ q ∈ s.line.queue, q.mark ≠ .entryCut ∧ q.sent = none) := by decide

/-- The two sides of the merge window, 2 frames and 3. -/
theorem witness_ItemBoundaryIsTaken :
    let s : State := { live with item := { live.item with lastBoundary := some 10 } }
    Delivered 1 (.item 12 7) s ∧ s.item.lastBoundary = some 10 ∧ (-2 ≤ s.dist 10 12 ∧ s.dist 10 12 ≤ 2) ∧
    Delivered 1 (.item 13 7) s ∧ (s.dist 10 13 < -2 ∨ 2 < s.dist 10 13) ∧ s.text.composeEmpty = true ∧
    (s.item.own = .none ∧ ({ s.item with own := .queued } : ItemState).own = .queued) ∧
    (typing word [] []).text.composeEmpty = false ∧ s.pacing.holding = false ∧ s.pacing.active.Legal ∧
    ({ s.pacing with holding := true } : PacingSet).holding = true := by
  refine ⟨by unfold Delivered; decide, by decide, by decide, by unfold Delivered; decide, by decide, by decide, by decide,
    by decide, by decide, defaults_legal, by decide⟩

theorem witness_RequestsEnterOrWait :
    (live.station.mode = .active ∧ live.item.own = .none) ∧ State.reset.station.mode ≠ .active ∧
    (live.line.queue.length ≤ 8 ∧ (live.line.queue.filter QPacket.started).length ≤ 1) ∧
    (let s : State := { live with line := { live.line with phase := 30 } }
    s.fps ≤ s.line.phase ∧ ∀ q ∈ s.line.queue ++ s.line.waiting, q.kind ≠ .state) ∧
    (let s := sending .state (.take false) .empty live
    ∃ q ∈ s.line.queue, q.kind = .state ∧ q.sent ≠ none) ∧
    (let s := ready .state live
    (∀ q ∈ s.line.queue, q.kind = .state → q.sent = none) ∧ ∃ q ∈ s.line.queue ++ s.line.waiting, q.kind = .state) := by decide

theorem witness_LineFollowsPair : (live.line.idle = false ∧ ∀ q ∈ live.line.queue, q.sent = none) ∧
    (ready .item live).line.idle = true := by decide

/-- Each kind of packet at the head, at and before the moment of its slot. -/
theorem witness_HeadStartsInItsSlot :
    (∀ k ∈ [PacketKind.cut 1 20, .take false, .yield, .item, .state, .cue 1, .revise 1],
      let s := ready k live
      s.station.mode = .active ∧ s.line.idle = true ∧ s.ref.guardOpen = false ∧ (∀ r ∈ s.line.queue, r.sent = none) ∧
        queueHead s.line.queue = some (.fresh k) ∧ s.line.lastSender ≤ 16 ∧ s.line.queue = [.fresh k] ∧ s.line.waiting = []) ∧
    (let s := ready (.cue 1) { live with claims := [claim 1 .planned 4 text] }
    claimToSend 1 s = some (claim 1 .planned 4 text) ∧ s.floor.state = .live ∧ 4 ≤ s.dist s.n 4 ∧ s.dist s.n 3 < 4) ∧
    (let c := { claim 1 .claimed 4 text with revision := some single }
    claimToRevise 1 (ready (.revise 1) { live with claims := [c] }) = some c) ∧
    (let s := ready (.revise 1) (claiming .bidding [{ claim 1 .claimed 3 text with revision := some single }])
    claimToRevise 1 s ≠ none ∧ s.floor.state = .bidding ∧ s.dist s.n 3 < 4) ∧
    (station .joining .idle none none).station.mode = .joining := by decide

theorem witness_EchoIsTaken :
    (let s := sending (.cue 1) (.cue (cueBody 1 6)) single { live with claims := [claim 1 .sending 6 single] }
    packetValid s.own (.cue (cueBody 1 6)) = true ∧ packetFits s (.cue (cueBody 1 6)) = true ∧
      sendingClaim 1 s = some (claim 1 .sending 6 single)) ∧
    (let s := sending (.revise 1) (.revise (cueBody 1 6)) single
      { live with claims := [{ claim 1 .claimed 6 text with revision := some single }] }
    packetValid s.own (.revise (cueBody 1 6)) = true ∧ (∃ c ∈ s.claims, c.seq = 1 ∧ c.state ≠ .planned) ∧
      ∀ c ∈ s.claims, c.seq = 1 → c.revision = none ∨ c.revision = some single) ∧
    (let s := sending (.revise 1) (.revise (cueBody 1 6)) text
      { live with claims := [{ claim 1 .claimed 6 text with revision := some single }] }
    single ≠ text ∧ (∃ c ∈ s.claims, c.seq = 1 ∧ c.state ≠ .planned) ∧ (∀ c ∈ s.claims, c.seq = 1 → c.revision = some single) ∧
      ∀ p ∈ s.line.waiting.take 7, p.kind ≠ .revise 1) ∧
    (∃ c ∈ [{ claim 1 .claimed 20 single with emptied := true }], c.seq = 1 ∧ c.emptied = true) ∧
    (∀ p ∈ [Packet.cut 1 20, .take true, .take false, .yield none, .item 4 1, .state (stateBody .drifting .live)],
      packetValid live.own p = true ∧ packetFits live p = true) ∧
    (([] : List QPacket).length + live.line.waiting.length + (stateBody .drifting .live).claims.length ≤ 8) ∧
    ((station .active .bidding none none).floor.holder = none ∧ (station .active .bidding (some 1) (some 2)).floor.successor
      = some 2) := by decide

theorem witness_MismatchStopsPacket :
    let s := sending .item (.item 4 1) .empty live
    s.line.queue = [] ++ { QPacket.fresh .item with sent := some { packet := .item 4 1, text := .empty } } :: [] ∧
    (QPacket.fresh .item).attempts < 15 ∧ (QPacket.fresh .item).mark ≠ .inFlight ∧
    (let q : QPacket := { QPacket.fresh .yield with attempts := 15, sent := some { packet := .yield none, text := .empty } }
    let s : State := { live with floor := { live.floor with state := .yielding, yieldOwed := true }
                                 line := { live.line with queue := [q] } }
    s.line.queue = [] ++ q :: [] ∧ q.sent ≠ none ∧ q.mark ≠ .inFlight ∧ 15 ≤ q.attempts ∧ s.floor.yieldOwed = true ∧
      s.line.waiting = []) ∧
    (let emptied := { claim 1 .claimed 60 single with withdrawal := some 60, emptied := true }
    (∀ c ∈ [emptied], c.seq = 1 → c.withdrawal ≠ none ∧ c.emptied = true) ∧
    (∀ c ∈ [{ emptied with emptied := false }], c.seq = 1 → c.withdrawal ≠ none ∧ c.emptied = false)) ∧
    (let s := claiming .live [{ claim 1 .claimed 5 text with revision := some single }]
    claimToRevise 1 s ≠ none ∧ s.floor.state = .live ∧ 5 ≤ s.dist s.n 5 ∧ ¬ 5 ≤ s.dist s.n 4) ∧
    (let q : QPacket := { QPacket.fresh .item with
      attempts := 14, mark := .inFlight, sent := some { packet := .item 4 1, text := .empty } }
    q.sent ≠ none ∧ q.mark = .inFlight ∧ q.attempts < 15) := by decide

theorem witness_UnfitPacketsReachNoBlock : packetValid 0 (.take false) = false ∧ packetValid live.own (.take false) = true ∧
    (packetValid 1 (.cut 1 2592000) = true ∧ 1 ≠ live.own ∧ packetFits live (.cut 1 2592000) = false) ∧
    ({ live.line with mismatch := 1 } : LineUnit).mismatch = 1 := by decide

theorem witness_CuePacketsReachMap :
    (let s : State := { live with map := [cue 1 1 20] }
    Delivered 1 (.cue (cueBody 2 300)) s ∧ Delivered 1 (.revise (cueBody 2 300)) s ∧
      (∀ d ∈ s.map, ¬ (d.owner = 1 ∧ d.seq = (2 : Byte))) ∧ Delivered 1 (.revise (cueBody 1 20)) s ∧
      (∃ d ∈ s.map, d.owner = 1 ∧ d.seq = (1 : Byte)) ∧ Delivered 1 (.cut 1 20) s ∧ findCue 1 1 s = some (cue 1 1 20) ∧
      0 ≤ s.dist 20 20 ∧ s.dist 21 20 < 0) := by unfold Delivered; decide

/-- A cue entered beside one that wins, one that loses, one that does not clash, and one that is later; and a full row. -/
theorem witness_CueEntersMap : (let full : State := { live with map := List.replicate 8 (cue 1 1 20) }
    8 ≤ (full.map.filter fun d => decide (d.low ≤ 1 ∧ 1 < d.low + d.count)).length ∧
      ∃ d ∈ full.map, (fun d : Cue => decide (d.owner = 2)) d = false) ∧
    (let s := claiming .live [claim 1 .claimed 20 text]
    s.claims = [] ++ claim 1 .claimed 20 text :: [] ∧ (claim 1 .claimed 20 text).withdrawal = none) ∧
    (let s : State := { live with map := [cue 1 1 300] }
    s.map.Nodup ∧ ∃ m ∈ s.map, ¬ (0 < s.dist m.showAt (10 + 40) ∧ 0 < s.dist 10 m.minOff) ∧ 0 < s.dist 10 m.showAt ∧
      0 < s.dist ((m.showAt + (s.day - m.gap)) % s.day) 310) ∧
    let s : State := { live with map := [cue 1 1 20] }
    (∃ d ∈ s.map, ¬ (d.owner = 2 ∧ d.seq = (1 : Byte)) ∧ 0 < s.dist d.showAt (30 + 40) ∧ 0 < s.dist 30 d.minOff ∧
      0 < s.dist d.showAt 30) ∧
    (∀ d ∈ s.map, ¬ 0 < s.dist d.showAt 10) ∧ (∀ d ∈ s.map, ¬ 0 < s.dist 300 d.minOff) ∧ s.map.length < 8 := by decide

theorem witness_StateIsTaken :
    Delivered 1 (.state (stateBody .anchored .live)) (station .joining .idle none none) ∧
    Delivered 1 (.state (stateBody .drifting .idle)) live ∧ live.line.peers.length = 16 ∧
    isTimeSource 1 (stateBody .anchored .live) live = true ∧ live.ref.status ≠ .anchored ∧
    live.dist live.n (((stateBody .anchored .live).frame + live.line.receiving.getD 0) % live.day) = 100 ∧
    (let l := (stateBody .anchored .live).claims
    let s : State := { live with map := [cue 2 1 300] }
    (listedCues 1 l s).length = 1 ∧ (l.map StateClaim.seq).Nodup ∧ (∀ k ∈ l, k.count = 1 ∨ k.count = 2) ∧
      s.map.length + l.length ≤ 8 ∧ s.dist 400 s.n < 0 ∧
      (∀ d ∈ s.map, d.owner ≠ 1 ∧ ¬ 0 < s.dist d.showAt 240)) := by unfold Delivered; decide

theorem witness_FinishKeepsRest : live.station.mode ≠ .resetting ∧ Settled live := by unfold Settled; decide

theorem witness_StickyFlagsStay : let s := State.flagged .refLost live
    s.report.flags.has .refLost = true ∧ ∃ t, exec .hold s = .next t := ⟨rfl, _, rfl⟩

/-- A station on the floor with a block queued and a cue in its map. -/
def busyStation : State :=
  { live with pending := [.endBlock], text := { live.text with queue := [block 1 single] }, map := [cue 1 1 20] }

theorem single_laid : single.Laid 42 := by
  refine ⟨.inl rfl, by decide, by decide, by decide⟩

theorem witness_TextStaysLaid : TextOk busyStation ∧ ScriptOk busyStation ∧ ∃ t, step busyStation = .next t :=
  ⟨⟨by decide, .inl rfl, by intro b hb; simp [busyStation] at hb; subst hb; exact single_laid, by decide, .inl rfl,
    by intro t ht; simp [busyStation, live, station, State.reset] at ht,
    by intro c hc; simp [busyStation, live, station, State.reset] at hc,
    by intro q hq; simp [busyStation, live, station, State.reset] at hq⟩,
   ⟨by intro t ht; simp [busyStation, live, station, State.reset] at ht, .inl rfl, by decide⟩, _, rfl⟩

theorem witness_PacingStaysLegal : PacingOk busyStation ∧ ∃ t, step busyStation = .next t :=
  ⟨⟨defaults_legal, by intro p x h; cases p <;> simp [busyStation, live, station, State.reset, Params.nothing, Params.get] at h⟩,
   _, rfl⟩

theorem witness_FloorStaysConsistent : FloorOk live ∧ ∃ t, step live = .next t :=
  ⟨⟨by decide, by intro q h; simp [live, station] at h, by decide, by decide⟩, _, rfl⟩

theorem witness_CapacitiesHold : CapacityOk busyStation ∧ ∃ t, step busyStation = .next t :=
  ⟨by unfold CapacityOk; decide, _, rfl⟩

theorem witness_MapStaysLawful : MapOk busyStation ∧ ∃ t, step busyStation = .next t :=
  ⟨⟨by decide, by simp [busyStation], by decide, fun row =>
    Nat.le_trans (List.length_filter_le _ _) (show busyStation.map.length ≤ 8 by decide), by simp [busyStation]⟩, _, rfl⟩

theorem witness_StepLeavesNothingDue : Settled live ∧ ∃ t, step live = .next t := ⟨by unfold Settled; decide, _, rfl⟩

theorem witness_PacketBytesDecode : packetValid 16 (.cue (cueBody 255 16777215)) = false ∧
    packetValid 16 (.cue (cueBody 255 16776965)) = true := by decide

end Sys2Proof.Tests
end

section
/-! The reference pulse, the flywheel, the guard window, timecode and the two losses of time (01_frame_time.md, R4 to R14). -/

namespace Sys2Proof.Machine

/-! ### What `exec` runs for the commands of the Reference Unit -/

theorem exec_referencePulse (t : Moment) (s : State) : exec (.referencePulse t) s = execReferencePulse t s := rfl

theorem exec_flywheelExpiry (s : State) :
    exec .flywheelExpiry s = .next (boundary (expiryMoment s) (flywheelInstant s)) := rfl

theorem exec_guardWindowOpen (s : State) :
    exec .guardWindowOpen s = .next { s with ref := { s.ref with guardOpen := true } } := rfl

theorem exec_timecodeValue (h m sec f : Nat) (s : State) :
    exec (.timecodeValue h m sec f) s = execTimecodeValue h m sec f s := rfl

theorem exec_timecodeLost (s : State) : exec .timecodeLost s = .next (timecodeLostAct s) := rfl

theorem exec_peerTimeSilenceExpiry (s : State) : exec .peerTimeSilenceExpiry s = .next (peerTimeAct s) := rfl

/-! ### The tests of the Reference Unit -/

theorem makesBoundary_iff (s : State) (elapsed : Moment) :
    makesBoundary s elapsed = true ↔ s.period ≤ 2 * elapsed := by
  simp [makesBoundary]

theorem inTolerance_iff (s : State) (elapsed : Moment) :
    inTolerance s elapsed = true ↔
      s.ref.setByPulse = true ∧ 98 * s.period ≤ 100 * elapsed ∧ 100 * elapsed ≤ 102 * s.period := by
  simp [inTolerance, and_assoc]

theorem State.anchoredStrap_iff (s : State) : s.anchoredStrap = true ↔ s.straps.follow = false := by
  simp [State.anchoredStrap]

theorem State.fps_pos (s : State) : 0 < s.fps := by
  rcases s.fps_eq with h | h <;> omega

/-- R9 with its range of frames written 0..F−1. -/
theorem timecodeValid_iff (s : State) (h m sec f : Nat) :
    timecodeValid s.fps h m sec f = true ↔ h ≤ 23 ∧ m ≤ 59 ∧ sec ≤ 59 ∧ f ≤ s.fps - 1 := by
  have frames : f < s.fps ↔ f ≤ s.fps - 1 := by have := s.fps_pos; omega
  simp [timecodeValid, frames, and_assoc]

theorem timecodeLostDue_iff (s : State) :
    timecodeLostDue s = true ↔ s.straps.follow = false ∧ 10 ≤ s.ref.tcSilence ∧ s.ref.status = .anchored := by
  simp [timecodeLostDue, s.anchoredStrap_iff, and_assoc]

theorem peerTimeDue_iff (s : State) :
    peerTimeDue s = true ↔ 3 * s.fps ≤ s.ref.peerSilence ∧ s.ref.status = .following := by
  simp [peerTimeDue]

/-! ### A reference pulse and the flywheel (R4 to R6) -/

theorem execReferencePulse_boundary {t : Moment} {s : State} (late : s.period ≤ 2 * (t - s.ref.refInstant)) :
    execReferencePulse t s = .next (boundary t (pulseInstant t s)) :=
  if_pos ((makesBoundary_iff s _).mpr late)

theorem execReferencePulse_realign {t : Moment} {s : State} (early : 2 * (t - s.ref.refInstant) < s.period) :
    execReferencePulse t s = .next (realign t s) :=
  if_neg fun made => absurd ((makesBoundary_iff s _).mp made) (Nat.not_le.mpr early)

theorem pulseInstant_eq (t : Moment) (s : State) :
    pulseInstant t s = { s with ref := { s.ref with
      refInstant := t, setByPulse := true,
      goodPulses :=
        if s.ref.setByPulse = true ∧ 98 * s.period ≤ 100 * (t - s.ref.refInstant) ∧
            100 * (t - s.ref.refInstant) ≤ 102 * s.period then min 8 (s.ref.goodPulses + 1) else 0 } } := by
  simp only [pulseInstant, State.modRef, inTolerance_iff]

theorem realign_eq (t : Moment) (s : State) :
    realign t s = { s with ref := { s.ref with
      refInstant := t, setByPulse := true, goodPulses := 0, guardOpen := false } } := rfl

theorem flywheelInstant_eq (s : State) :
    flywheelInstant s = State.flagged .refLost { s with ref := { s.ref with
      refInstant := s.ref.refInstant + s.period, setByPulse := false, goodPulses := 0 } } := rfl

/-- Settles O7: half a period decides between a boundary and a realigned instant, and the flywheel makes its boundary at
1.02P. -/
theorem pulsesMakeBoundaries : Obligations.PulsesMakeBoundaries := by
  refine ⟨fun t s late => ?boundary, fun t s early => ?realigned, fun s => ?flywheel⟩
  case boundary => rw [exec_referencePulse, execReferencePulse_boundary late, pulseInstant_eq]
  case realigned => rw [exec_referencePulse, execReferencePulse_realign early, realign_eq]
  case flywheel => rw [exec_flywheelExpiry, flywheelInstant_eq, expiryMoment]

/-! ### Timecode and the losses of time (R9, R11, R14) -/

/-- R9's conversion, and the frame after it: the boundary that applies the load begins that frame. -/
theorem plus_timecodeFrame_one (s : State) (h m sec f : Nat) :
    s.plus (timecodeFrame s.fps h m sec f) 1 =
      (h * 3600 * s.fps + m * 60 * s.fps + sec * s.fps + f + 1) % s.day := rfl

theorem execTimecodeValue_valid {h m sec f : Nat} {s : State} (anchored : s.straps.follow = false)
    (valid : h ≤ 23 ∧ m ≤ 59 ∧ sec ≤ 59 ∧ f ≤ s.fps - 1) :
    execTimecodeValue h m sec f s = .next { s with ref := { s.ref with
      pendingLoad := some ((h * 3600 * s.fps + m * 60 * s.fps + sec * s.fps + f + 1) % s.day) } } := by
  rw [← plus_timecodeFrame_one]
  exact if_pos (Bool.and_eq_true_iff.mpr ⟨s.anchoredStrap_iff.mpr anchored, (timecodeValid_iff s h m sec f).mpr valid⟩)

theorem execTimecodeValue_discarded {h m sec f : Nat} {s : State}
    (unfit : ¬ (s.straps.follow = false ∧ h ≤ 23 ∧ m ≤ 59 ∧ sec ≤ 59 ∧ f ≤ s.fps - 1)) :
    execTimecodeValue h m sec f s = .next s := by
  refine if_neg fun taken => unfit ?_
  obtain ⟨anchored, valid⟩ := Bool.and_eq_true_iff.mp taken
  exact ⟨s.anchoredStrap_iff.mp anchored, (timecodeValid_iff s h m sec f).mp valid⟩

theorem timecodeLostAct_due {s : State} (anchored : s.straps.follow = false) (silent : 10 ≤ s.ref.tcSilence)
    (status : s.ref.status = .anchored) :
    timecodeLostAct s = { s with ref := { s.ref with
      status := if s.ref.peerSilence < 3 * s.fps then .following else .drifting } } :=
  if_pos ((timecodeLostDue_iff s).mpr ⟨anchored, silent, status⟩)

theorem peerTimeAct_due {s : State} (silent : 3 * s.fps ≤ s.ref.peerSilence) (status : s.ref.status = .following) :
    peerTimeAct s = { s with ref := { s.ref with status := .drifting } } :=
  if_pos ((peerTimeDue_iff s).mpr ⟨silent, status⟩)

/-- Settles O10: a timecode value splits into the one R9 takes and the one it discards; the other three commands act by one
equation each. -/
theorem timeEventsSetStatus : Obligations.TimeEventsSetStatus := by
  refine ⟨exec_guardWindowOpen, fun h m sec f s => ?timecode, fun s anchored silent status => ?timecodeLost,
    fun s silent status => ?peerTimeLost⟩
  case timecode =>
    rw [exec_timecodeValue]
    by_cases taken : s.straps.follow = false ∧ h ≤ 23 ∧ m ≤ 59 ∧ sec ≤ 59 ∧ f ≤ s.fps - 1
    · rw [if_pos taken, execTimecodeValue_valid taken.1 taken.2]
    · rw [if_neg taken, execTimecodeValue_discarded taken]
  case timecodeLost => rw [exec_timecodeLost, timecodeLostAct_due anchored silent status]
  case peerTimeLost => rw [exec_peerTimeSilenceExpiry, peerTimeAct_due silent status]

end Sys2Proof.Machine
end

section
/-! The Script Store: the codes that load it, and NEXT (03_the_script_store.md, R38 to R45). -/

namespace Sys2Proof.Machine

/-! ### Control codes outside RESETTING -/

theorem State.portClosed_eq_false {s : State} (taken : s.station.mode ≠ .resetting) : s.portClosed = false :=
  decide_eq_false taken

theorem plainCode_taken {s : State} (f : State → State) (taken : s.station.mode ≠ .resetting) :
    plainCode f s = f (closeCommand s) := by
  rw [plainCode, State.portClosed_eq_false taken, if_neg Bool.false_ne_true]

theorem actCode_taken {s : State} (f : State → State) (taken : s.station.mode ≠ .resetting) :
    actCode f s = finish (f (closeCommand s)) := by
  rw [actCode, State.portClosed_eq_false taken, if_neg Bool.false_ne_true]

theorem closeCommand_script (s : State) : (closeCommand s).script = s.script := by simp

/-- A code that works on the store works on the store as it stood before the open PACE command was discarded. -/
theorem closeCommand_modScript (f : ScriptStore → ScriptStore) (s : State) :
    (closeCommand s).modScript f = { closeCommand s with script := f s.script } := by
  rw [State.modScript, closeCommand_script]

/-! ### What `exec` runs for the codes of the Script Store -/

theorem exec_scriptBegin_taken {s : State} (taken : s.station.mode ≠ .resetting) :
    exec .scriptBegin s = .next { closeCommand s with script := s.script.begun } := by
  rw [← closeCommand_modScript]
  exact congrArg Host.Outcome.next (plainCode_taken _ taken)

theorem exec_scriptEnd_taken {s : State} (taken : s.station.mode ≠ .resetting) :
    exec .scriptEnd s = .next (scriptEndAct (closeCommand s)) :=
  congrArg Host.Outcome.next (plainCode_taken _ taken)

theorem exec_loopOn_taken {s : State} (taken : s.station.mode ≠ .resetting) :
    exec .loopOn s = .next { closeCommand s with script := { s.script with loop := true } } := by
  rw [← closeCommand_modScript fun u => { u with loop := true }]
  exact congrArg Host.Outcome.next (plainCode_taken _ taken)

theorem exec_loopOff_taken {s : State} (taken : s.station.mode ≠ .resetting) :
    exec .loopOff s = .next { closeCommand s with script := { s.script with loop := false } } := by
  rw [← closeCommand_modScript fun u => { u with loop := false }]
  exact congrArg Host.Outcome.next (plainCode_taken _ taken)

theorem exec_next_taken {s : State} (taken : s.station.mode ≠ .resetting) :
    exec .next s = .next (finish (storeNext (closeCommand s))) :=
  congrArg Host.Outcome.next (actCode_taken _ taken)

/-! ### SCRIPT-END by the loading state (R40) -/

/-- What SCRIPT-END leaves of a store whose loading block has been stored. -/
def ScriptStore.ended (u : ScriptStore) : ScriptStore := { u with loadMark := false, load := .notLoading }

theorem completeLoading_of_loadWord_nil {s : State} (word : s.script.loadWord = []) : completeLoading s = s :=
  if_pos (List.isEmpty_iff.mpr word)

theorem ScriptStore.storeLoading_eq (u : ScriptStore) :
    u.storeLoading = { u with
      stored := if u.loadText.hasWord = true then u.stored ++ [u.loadText] else u.stored,
      loadText := if u.loadText.hasWord = true then Text.empty else u.loadText } := by
  unfold ScriptStore.storeLoading
  split <;> rfl

theorem State.loadingScript_iff (s : State) : s.loadingScript = true ↔ s.script.load ≠ .notLoading := by
  simp [State.loadingScript]

theorem scriptEndAct_notLoading {s : State} (load : s.script.load = .notLoading) : scriptEndAct s = s :=
  if_neg fun loading => s.loadingScript_iff.mp loading load

theorem scriptEndAct_discarding {s : State} (load : s.script.load = .discarding) :
    scriptEndAct s = s.modScript ScriptStore.ended := by
  have loading : s.loadingScript = true := s.loadingScript_iff.mpr (by simp [load])
  have kept : storeEndBlock s = s := if_neg (by simp [load])
  rw [scriptEndAct, if_pos loading, kept]
  rfl

theorem scriptEndAct_loading {s : State} (load : s.script.load = .loading) :
    scriptEndAct s = (completeLoading s).modScript fun u => u.storeLoading.ended := by
  have loading : s.loadingScript = true := s.loadingScript_iff.mpr (by simp [load])
  rw [scriptEndAct, if_pos loading, storeEndBlock, if_pos load]
  rfl

/-- Settles O20: one equation per code, and SCRIPT-END by the loading state and the loading word. -/
theorem scriptCodesRunStore : Obligations.ScriptCodesRunStore := by
  intro s taken
  refine ⟨exec_scriptBegin_taken taken, fun load => ?notLoading, fun load => ?discarding, fun load word => ?noWord,
    fun load _ => ?word, exec_loopOn_taken taken, exec_loopOff_taken taken⟩
  all_goals
    rw [exec_scriptEnd_taken taken]
    rw [← closeCommand_script s] at load
  case notLoading => rw [scriptEndAct_notLoading load]
  case discarding => rw [scriptEndAct_discarding load, closeCommand_modScript, ScriptStore.ended]
  case noWord =>
    rw [← closeCommand_script s] at word
    rw [scriptEndAct_loading load, completeLoading_of_loadWord_nil word, closeCommand_modScript,
      ScriptStore.storeLoading_eq, ScriptStore.ended]
  case word =>
    rw [scriptEndAct_loading load]
    rfl

/-! ### A block at the tail of the Block Queue (R30, R45) -/

theorem enterTail_room (b : Block) {s : State} (room : s.text.queue.length < 16) :
    enterTail b s = pushReport (.queued b.seq b.text.count b.cause b.closeFrame)
      { s with text := { s.text with queue := s.text.queue ++ [b] } } := by
  rw [enterTail, dropOverflow_room room]
  rfl

theorem enterTail_full (b : Block) {s : State} {head : Block} {rest : List Block} (queue : s.text.queue = head :: rest)
    (full : 16 ≤ s.text.queue.length) :
    enterTail b s = pushReport (.queued b.seq b.text.count b.cause b.closeFrame)
      (pushReport (.dropped .overflow (some head.seq)) (State.flagged .queueOverflow { s with
        text := { s.text with queue := rest ++ [b] }, timer := { s.timer with hold := false } })) := by
  rw [enterTail, dropOverflow_full queue full]
  rfl

/-! ### NEXT (R43, R44) -/

theorem ScriptStore.target_of_pointer_le {u : ScriptStore} (within : u.pointer ≤ u.stored.length) :
    u.target = u.pointer :=
  if_neg fun past => absurd past.1 (Nat.not_lt.mpr within)

theorem ScriptStore.target_of_loop_off {u : ScriptStore} (loop : u.loop = false) : u.target = u.pointer :=
  if_neg fun past => by simp [loop] at past

theorem ScriptStore.target_of_loop_on {u : ScriptStore} (past : u.stored.length < u.pointer) (loop : u.loop = true) :
    u.target = 1 :=
  if_pos ⟨past, loop⟩

/-- A block found at the pointer is one the pointer has not passed. -/
theorem ScriptStore.target_of_getElem? {u : ScriptStore} {t : Text} (first : 1 ≤ u.pointer)
    (found : u.stored[u.pointer - 1]? = some t) : u.target = u.pointer := by
  obtain ⟨within, -⟩ := List.getElem?_eq_some_iff.mp found
  exact u.target_of_pointer_le (by omega)

theorem storeNext_busy {s : State} (load : s.script.load ≠ .notLoading) : storeNext s = pushReport .busy s :=
  if_neg load

theorem storeNext_scriptEnd {s : State} (load : s.script.load = .notLoading)
    (nothing : s.script.stored[s.script.target - 1]? = none) : storeNext s = pushReport .scriptEnd s := by
  rw [storeNext, if_pos load, nothing]

theorem storeNext_release {s : State} {t : Text} (load : s.script.load = .notLoading)
    (found : s.script.stored[s.script.target - 1]? = some t) :
    storeNext s = releaseBlock t (s.modScript fun u => { u with pointer := u.target + 1 }) := by
  rw [storeNext, if_pos load, found]

theorem exec_next_busy {s : State} (taken : s.station.mode ≠ .resetting) (load : s.script.load ≠ .notLoading) :
    exec .next s = .next (finish (pushReport .busy (closeCommand s))) := by
  rw [← closeCommand_script s] at load
  rw [exec_next_taken taken, storeNext_busy load]

theorem exec_next_scriptEnd {s : State} (taken : s.station.mode ≠ .resetting) (load : s.script.load = .notLoading)
    (nothing : s.script.stored[s.script.target - 1]? = none) :
    exec .next s = .next (finish (pushReport .scriptEnd (closeCommand s))) := by
  rw [← closeCommand_script s] at load nothing
  rw [exec_next_taken taken, storeNext_scriptEnd load nothing]

theorem exec_next_release {s : State} {t : Text} {p : Nat} (taken : s.station.mode ≠ .resetting)
    (load : s.script.load = .notLoading) (target : s.script.target = p) (found : s.script.stored[p - 1]? = some t) :
    exec .next s = .next (finish (releaseBlock t
      { closeCommand s with script := { s.script with pointer := p + 1 } })) := by
  subst target
  rw [← closeCommand_script s] at load found
  rw [exec_next_taken taken, storeNext_release load found, closeCommand_modScript]

/-- Settles O22: NEXT by the loading state and by what stands at the pointer, the pointer past the last block by the loop
flag; then the released block's entry into a queue with room and into a full one. -/
theorem nextReleasesBlock : Obligations.NextReleasesBlock := by
  refine ⟨fun s taken => ⟨exec_next_busy taken, fun load empty => ?empty, fun load past loop => ?past,
    fun t load first found => ?atPointer, fun t load past loop found => ?loops⟩, fun x s => ⟨fun room => ?room,
    fun head rest queue full => ?full⟩⟩
  case empty => exact exec_next_scriptEnd taken load (by rw [empty, List.getElem?_nil])
  case past =>
    have beyond : s.script.stored.length ≤ s.script.pointer - 1 := by omega
    refine exec_next_scriptEnd taken load ?_
    rw [ScriptStore.target_of_loop_off loop, List.getElem?_eq_none beyond]
  case atPointer => exact exec_next_release taken load (ScriptStore.target_of_getElem? first found) found
  case loops => exact exec_next_release taken load (ScriptStore.target_of_loop_on past loop) found
  case room => exact enterTail_room _ room
  case full => exact enterTail_full _ queue full

end Sys2Proof.Machine
end

section
/-! The stages of an attempt: the chosen rows, the earliest show, the pace state and the duration (04_timing_a_cue.md, R54, R55
and R59 to R62). -/

namespace Sys2Proof.Machine

/-! ### Rows and the earliest show (R54, R55) -/

theorem chooseLow_eq (s : State) (k : Nat) :
    chooseLow s k = if s.pacing.active.placement = 1 then (if k + 1 ≤ s.displayRows then 2 else 1) else 1 :=
  ite_and ..

theorem State.isAfter_iff (s : State) (a b : Frame) : isAfter s.day a b = true ↔ 0 < s.dist a b :=
  decide_eq_true_iff

/-- The claims whose cue has not been echoed are those R55 names by their state. -/
theorem Claim.not_echoed_iff (c : Claim) : (!c.echoed) = true ↔ c.state = .planned ∨ c.state = .sending := by
  cases state : c.state <;> simp [Claim.echoed, state]

/-- The candidates beside the planning lead are the frames R55 lists: G after a firm end of the map, and G after the
minimum-off of an own claim not yet in the map. -/
theorem mem_showCandidates {s : State} {low k : Nat} {f : Frame} :
    f ∈ showCandidates s low k ↔
      (∃ d ∈ s.map, (spansShare d.low d.count low k = true ∧ 0 < s.dist s.n d.minOff) ∧
        f = s.plus d.minOff s.pacing.active.g) ∨
      ∃ c ∈ s.claims, ((c.state = .planned ∨ c.state = .sending) ∧ spansShare c.low c.count low k = true) ∧
        f = s.plus c.minOff s.pacing.active.g := by
  simp only [showCandidates, List.mem_append, List.mem_map, List.mem_filter, Bool.and_eq_true, State.isAfter_iff,
    Claim.not_echoed_iff, and_assoc, @eq_comm _ f]

theorem dist_planningLead_le_earliestShow (s : State) (low k : Nat) :
    s.dist s.n (s.plus s.n planningLead) ≤ s.dist s.n (earliestShow s low k) :=
  (latest_spec s.day s.n (showCandidates s low k) _).1

theorem dist_le_earliestShow {s : State} {low k : Nat} {f : Frame} (candidate : f ∈ showCandidates s low k) :
    s.dist s.n f ≤ s.dist s.n (earliestShow s low k) :=
  (latest_spec s.day s.n (showCandidates s low k) _).2.1 f candidate

theorem earliestShow_eq_or_mem (s : State) (low k : Nat) :
    earliestShow s low k = s.plus s.n planningLead ∨ earliestShow s low k ∈ showCandidates s low k :=
  (latest_spec s.day s.n (showCandidates s low k) _).2.2

/-- Settles O24: the earliest show is a candidate of R55 and no candidate lies later, the candidates read by
`mem_showCandidates`. -/
theorem showFollowsFirmEnds : Obligations.ShowFollowsFirmEnds := by
  refine ⟨chooseLow_eq, fun s low k => ⟨dist_planningLead_le_earliestShow s low k, fun d mapped firm => ?ofMap,
    fun c own unmapped => ?ofClaim, ?attained⟩⟩
  case ofMap => exact dist_le_earliestShow (mem_showCandidates.mpr (.inl ⟨d, mapped, firm, rfl⟩))
  case ofClaim => exact dist_le_earliestShow (mem_showCandidates.mpr (.inr ⟨c, own, unmapped, rfl⟩))
  case attained => exact (earliestShow_eq_or_mem s low k).imp_right mem_showCandidates.mp

/-! ### The pace state (R59) -/

theorem nextPace_normal_late {v : Params Nat} {lag : Int} (late : (v.t : Int) < lag) :
    nextPace v .normal lag = .catchUp := if_pos late

theorem nextPace_normal_timely {v : Params Nat} {lag : Int} (timely : lag ≤ v.t) :
    nextPace v .normal lag = .normal := if_neg (Int.not_lt.mpr timely)

theorem nextPace_catchUp_recovered {v : Params Nat} {lag : Int} (recovered : lag < (v.t : Int) - v.h) :
    nextPace v .catchUp lag = .normal := if_pos recovered

theorem nextPace_catchUp_late {v : Params Nat} {lag : Int} (late : (v.t : Int) - v.h ≤ lag) :
    nextPace v .catchUp lag = .catchUp := if_neg (Int.not_lt.mpr late)

/-! ### The duration (R60 to R62) -/

/-- R60's rounding, from below: the base duration reaches the exact quotient. -/
theorem le_baseDuration_mul {r : Nat} (count fps : Nat) (rate : 0 < r) :
    count * fps * 10 ≤ baseDuration count fps r * r := by
  have below : count * fps * 10 + (r - 1) < baseDuration count fps r * r + r := Nat.lt_div_mul_add rate
  omega

/-- R60's rounding, from above: the base duration is less than one frame over the exact quotient. -/
theorem baseDuration_mul_lt {r : Nat} (count fps : Nat) (rate : 0 < r) :
    baseDuration count fps r * r < count * fps * 10 + r := by
  have above : baseDuration count fps r * r ≤ count * fps * 10 + (r - 1) := Nat.div_mul_le_self _ r
  omega

theorem baseDuration_pos {count fps r : Nat} (counted : 0 < count) (frames : 0 < fps) (rate : 0 < r) :
    0 < baseDuration count fps r := by
  have product : 0 < baseDuration count fps r * r :=
    Nat.lt_of_lt_of_le (by positivity) (le_baseDuration_mul count fps rate)
  exact Nat.pos_of_mul_pos_right product

/-- The greatest count at the greater frame rate and the slowest reading rate gives 84 × 30 × 10 / 60 = 420. -/
theorem baseDuration_le {count fps r : Nat} (fits : count ≤ 84) (frames : fps ≤ 30) (slowest : 60 ≤ r) :
    baseDuration count fps r ≤ 420 := by
  have product : count * fps ≤ 84 * 30 := Nat.mul_le_mul fits frames
  have below : baseDuration count fps r * r < 421 * r := by
    have rounded := baseDuration_mul_lt count fps (show 0 < r by omega)
    omega
  exact Nat.le_of_lt_succ (Nat.lt_of_mul_lt_mul_right below)

/-- R61's whole part: the frames taken off are x × k / 8 rounded down, x the excess lag. -/
theorem compressed_catchUp (v : Params Nat) (lag : Int) (d : Nat) :
    ∃ cut : Nat, compressed v .catchUp lag d = (d : Int) - cut ∧
      8 * (cut : Int) ≤ max (lag - v.t) 0 * v.k ∧ max (lag - v.t) 0 * v.k < 8 * (cut : Int) + 8 := by
  refine ⟨(lag - v.t).toNat * v.k / 8, rfl, ?_⟩
  rw [← Int.toNat_eq_max]
  omega

theorem clampDuration_below {v : Params Nat} {d : Int} (below : d < v.dmin) : clampDuration v d = v.dmin :=
  if_pos below

theorem clampDuration_above {v : Params Nat} {d : Int} (range : v.dmin ≤ v.dmax) (above : (v.dmax : Int) < d) :
    clampDuration v d = v.dmax := by
  rw [clampDuration, if_neg (by omega), if_pos above]

theorem clampDuration_within {v : Params Nat} {d : Int} (low : (v.dmin : Int) ≤ d) (high : d ≤ v.dmax) :
    (clampDuration v d : Int) = d := by
  rw [clampDuration, if_neg (Int.not_lt.mpr low), if_neg (Int.not_lt.mpr high)]
  omega

/-- Settles O25: one lemma for each side of the two lag thresholds, of R60's rounding and range, and of the clamp. -/
theorem lagSetsPaceAndDuration : Obligations.LagSetsPaceAndDuration := by
  refine ⟨fun v lag => ⟨nextPace_normal_late, nextPace_normal_timely, nextPace_catchUp_recovered, nextPace_catchUp_late⟩,
    fun c f r counted fits frames slowest _ => ?base, fun v lag d => ⟨rfl, compressed_catchUp v lag d⟩,
    fun v d range => ⟨clampDuration_below, clampDuration_above range, clampDuration_within⟩⟩
  case base =>
    have rate : 0 < r := by omega
    exact ⟨baseDuration_pos counted (by omega) rate, baseDuration_le fits (by omega) slowest, le_baseDuration_mul c f rate,
      baseDuration_mul_lt c f rate⟩

end Sys2Proof.Machine
end

section
/-! The straps and the ALERT line (10_station_modes_and_reporting.md, R160 and R169). -/

namespace Sys2Proof.Machine

/-! ### The straps after the acts of the text port -/

@[simp] theorem discardByte_straps (framingError : Bool) (b : Byte) (s : State) :
    (discardByte framingError b s).straps = s.straps := by
  unfold discardByte
  split <;> simp

@[simp] theorem takeCharacter_straps (c : Byte) (s : State) : (takeCharacter c s).straps = s.straps := by
  unfold takeCharacter
  split
  · rfl
  · split <;> simp

@[simp] theorem endBlockAct_straps (s : State) : (endBlockAct s).straps = s.straps := by
  unfold endBlockAct
  split <;> simp

@[simp] theorem speakerAct_straps (s : State) : (speakerAct s).straps = s.straps := by
  unfold speakerAct
  split <;> simp

@[simp] theorem retractAct_straps (s : State) : (retractAct s).straps = s.straps := by
  unfold retractAct
  split <;> simp

@[simp] theorem scriptEndAct_straps (s : State) : (scriptEndAct s).straps = s.straps := by
  unfold scriptEndAct
  split <;> simp

@[simp] theorem takeAct_straps (s : State) : (takeAct s).straps = s.straps := by
  unfold takeAct
  split
  · split <;> simp
  · simp

@[simp] theorem yieldAct_straps (s : State) : (yieldAct s).straps = s.straps := by
  unfold yieldAct
  split <;> simp

@[simp] theorem parkActive_straps (s : State) : (parkActive s).straps = s.straps := by
  unfold parkActive
  split <;> simp

@[simp] theorem parkCode_straps (s : State) : (parkCode s).straps = s.straps := by
  unfold parkCode
  split <;> simp

@[simp] theorem unparkCode_straps (s : State) : (unparkCode s).straps = s.straps := by
  unfold unparkCode
  split <;> simp

@[simp] theorem releaseAct_straps (s : State) : (releaseAct s).straps = s.straps := by
  unfold releaseAct
  split <;> simp

@[simp] theorem statusAct_straps (s : State) : (statusAct s).straps = s.straps := rfl

@[simp] theorem contactAct_straps (s : State) : (contactAct s).straps = s.straps := by
  unfold contactAct
  split
  · split <;> simp
  · rfl

/-! ### The straps under the shared operations that take an act -/

theorem plainCode_straps {f : State → State} (kept : ∀ u, (f u).straps = u.straps) (s : State) :
    (plainCode f s).straps = s.straps := by
  unfold plainCode
  split <;> simp [kept]

theorem actCode_straps {f : State → State} (kept : ∀ u, (f u).straps = u.straps) (s : State) :
    (actCode f s).straps = s.straps := by
  unfold actCode
  split <;> simp [kept]

/-- A packet heard, whichever way its checks send it, keeps the straps when its delivery does. -/
theorem hear_straps {f : State → State} (kept : ∀ u, (f u).straps = u.straps) (p : Nat) (k : Packet) (s : State) :
    (hear p k f s).straps = s.straps := by
  simp only [hear]
  (repeat' split) <;> simp [kept]

/-! ### Outcomes that keep the straps -/

/-- The straps stand in every state the outcome may answer. -/
def KeepsStraps (s : State) (o : Host.Outcome State Fault Refusal) : Prop := ∀ t, o = .next t → t.straps = s.straps

theorem KeepsStraps.next {s u : State} (kept : u.straps = s.straps) : KeepsStraps s (.next u) := by
  rintro t ⟨⟩
  exact kept

theorem KeepsStraps.finish {s u : State} (kept : u.straps = s.straps) : KeepsStraps s (.next (finish u)) :=
  .next (by simp [kept])

theorem KeepsStraps.ite {s : State} {p : Prop} [Decidable p] {o₁ o₂ : Host.Outcome State Fault Refusal}
    (h₁ : KeepsStraps s o₁) (h₂ : KeepsStraps s o₂) : KeepsStraps s (if p then o₁ else o₂) := by
  split
  · exact h₁
  · exact h₂

theorem KeepsStraps.plainCode {f : State → State} (kept : ∀ u, (f u).straps = u.straps) (s : State) :
    KeepsStraps s (.next (plainCode f s)) := .next (plainCode_straps kept s)

theorem KeepsStraps.actCode {f : State → State} (kept : ∀ u, (f u).straps = u.straps) (s : State) :
    KeepsStraps s (.next (actCode f s)) := .next (actCode_straps kept s)

theorem KeepsStraps.hear {f : State → State} (kept : ∀ u, (f u).straps = u.straps) (p : Nat) (k : Packet) (s : State) :
    KeepsStraps s (.next (Machine.finish (hear p k f s))) := .finish (hear_straps kept p k s)

/-! ### Commands that do one thing or another -/

theorem execReferencePulse_keepsStraps (t : Moment) (s : State) : KeepsStraps s (execReferencePulse t s) :=
  .ite (.next (by simp [pulseInstant])) (.next (by simp [realign]))

theorem execTimecodeValue_keepsStraps (h m sec f : Nat) (s : State) : KeepsStraps s (execTimecodeValue h m sec f s) :=
  .ite (.next rfl) (.next rfl)

theorem execCharacter_keepsStraps (c : Byte) (s : State) : KeepsStraps s (execCharacter c s) :=
  .ite (.next rfl) (.ite (.finish (by simp)) (.next (by simp)))

theorem execDiscardedByte_keepsStraps (framingError : Bool) (b : Byte) (s : State) :
    KeepsStraps s (execDiscardedByte framingError b s) := .ite (.next rfl) (.next (by simp))

theorem execReset_keepsStraps (s : State) : KeepsStraps s (execReset s) :=
  .ite (.next rfl) (.ite (.next (by simp)) (.finish (by simp)))

theorem execPaceTerminator_keepsStraps (s : State) : KeepsStraps s (execPaceTerminator s) :=
  .ite (.next rfl) (.next (by simp))

theorem execLineIdle_keepsStraps (t : Moment) (s : State) : KeepsStraps s (execLineIdle t s) :=
  .ite (.next rfl) (.next rfl)

theorem execLineBusy_keepsStraps (s : State) : KeepsStraps s (execLineBusy s) := .ite (.next rfl) (.next rfl)

theorem execTransmissionStart_keepsStraps (t : Moment) (s : State) : KeepsStraps s (execTransmissionStart t s) :=
  .ite (.finish (by simp)) (.next rfl)

theorem execPacketEcho_keepsStraps (s : State) : KeepsStraps s (execPacketEcho s) := by
  unfold execPacketEcho
  split
  · split
    · exact .finish (by simp)
    · exact .next rfl
  · exact .next rfl

theorem execReadbackMismatch_keepsStraps (s : State) : KeepsStraps s (execReadbackMismatch s) := by
  unfold execReadbackMismatch
  split
  · exact .finish (by simp)
  · exact .next rfl

/-! ### R160: every command but POWER_ON keeps the straps -/

theorem exec_keepsStraps (c : Instr) (s : State) (running : ∀ pins m, c ≠ .powerOn pins m) :
    KeepsStraps s (exec c s) := by
  cases c with
  | powerOn pins m => exact absurd rfl (running pins m)
  | referencePulse t => exact execReferencePulse_keepsStraps t s
  | flywheelExpiry => exact .next (by simp [flywheelInstant])
  | guardWindowOpen => exact .next rfl
  | timecodeValue h m sec f => exact execTimecodeValue_keepsStraps h m sec f s
  | timecodeLost => exact .next (by simp)
  | peerTimeSilenceExpiry => exact .next (by simp)
  | character b => exact execCharacter_keepsStraps b s
  | discardedByte framingError b => exact execDiscardedByte_keepsStraps framingError b s
  | endBlock => exact .actCode endBlockAct_straps s
  | speaker => exact .actCode speakerAct_straps s
  | retract => exact .actCode retractAct_straps s
  | scriptBegin => exact .plainCode (fun u => u.modScript_straps _) s
  | scriptEnd => exact .plainCode scriptEndAct_straps s
  | loopOn => exact .plainCode (fun u => u.modScript_straps _) s
  | loopOff => exact .plainCode (fun u => u.modScript_straps _) s
  | next => exact .actCode (fun _ => by simp) s
  | take => exact .actCode takeAct_straps s
  | yield => exact .actCode yieldAct_straps s
  | park => exact .actCode parkCode_straps s
  | unpark => exact .actCode unparkCode_straps s
  | hold => exact .plainCode (fun u => u.modPacing_straps _) s
  | release => exact .plainCode releaseAct_straps s
  | status => exact .plainCode statusAct_straps s
  | reset => exact execReset_keepsStraps s
  | paceIntroducer => exact .plainCode (fun u => u.modPacing_straps _) s
  | paceTerminator => exact execPaceTerminator_keepsStraps s
  | idleClose => exact .finish (by simp)
  | yieldDeadline => exact .finish (by simp)
  | bidWaitExpiry => exact .finish (by simp)
  | peerSilent peer => exact .finish (by simp)
  | stateDue => exact .next (by simp)
  | mismatchCountExpiry => exact .next rfl
  | joinWaitExpiry => exact .finish (by simp)
  | resetCountExpiry => exact .finish (by simp)
  | resetDrained => exact .next (by simp)
  | deferredPark => exact .next (by simp)
  | itemContactClose => exact .next (contactAct_straps s)
  | lineIdle t => exact execLineIdle_keepsStraps t s
  | transmissionStart t => exact execTransmissionStart_keepsStraps t s
  | packetEcho => exact execPacketEcho_keepsStraps s
  | readbackMismatch => exact execReadbackMismatch_keepsStraps s
  | waitingRequestEntry => exact .next (by simp)
  | cutShortPacket => exact .next (by simp)
  | discardedPacket => exact .next (by simp)
  | cuePacket sender body => exact .hear (fun _ => by simp) sender _ s
  | revisePacket sender body => exact .hear (fun _ => by simp) sender _ s
  | cutPacket sender seq off => exact .hear (fun _ => by simp) sender _ s
  | plainTake sender => exact .hear (fun _ => by simp) sender _ s
  | forcedTake sender => exact .hear (fun _ => by simp) sender _ s
  | yieldPacket sender successor => exact .hear (fun _ => by simp) sender _ s
  | itemPacket sender boundary number => exact .hear (fun _ => by simp) sender _ s
  | statePacket sender body => exact .hear (fun _ => by simp) sender _ s
  | reportLineSent => exact .next rfl
  | lineBusy => exact execLineBusy_keepsStraps s

/-! ### R160: what the pins mean -/

theorem exec_powerOn (pins : StrapPins) (m : Moment) (s : State) : exec (.powerOn pins m) s = .next (powerOnState pins m s) :=
  rfl

/-- The row width by the width code: codes past 10 give the width of code 10. -/
theorem State.rowWidth_eq (s : State) :
    s.rowWidth = if s.straps.width.toNat ≤ 10 then 32 + s.straps.width.toNat else 42 := by
  unfold State.rowWidth StrapPins.rowWidth
  split <;> omega

theorem auto_of_autoTakeDue {s : State} (due : autoTakeDue s = true) : s.straps.auto = true := by
  simp only [autoTakeDue, Bool.and_eq_true] at due
  obtain ⟨⟨⟨⟨auto, -⟩, -⟩, -⟩, -⟩ := due
  exact auto

/-- Settles O4: POWER_ON takes the pins it reads, every other command keeps them, and each group of pins decodes by its own
row of the table. -/
theorem strapsReadAtPowerOn : Obligations.StrapsReadAtPowerOn := by
  refine ⟨fun pins m s t run => ?read, fun c s t running run => exec_keepsStraps c s running t run,
    fun s => ⟨rfl, rfl, rfl, s.rowWidth_eq, s.anchoredStrap_iff, auto_of_autoTakeDue⟩⟩
  case read =>
    rw [exec_powerOn] at run
    cases run
    rfl

/-! ### R169: the ALERT line -/

theorem State.locked_eq_false_iff (s : State) : s.locked = false ↔ s.ref.goodPulses ≠ 8 :=
  decide_eq_false_iff_not

/-- Settles O11: ALERT is the disjunction of its four conditions, UNLOCKED read by the good-pulse count. -/
theorem alertFollowsConditions : Obligations.AlertFollowsConditions := by
  intro s
  simp only [State.alert, Bool.or_eq_true, Bool.not_eq_true', s.locked_eq_false_iff, decide_eq_true_eq, or_assoc]

end Sys2Proof.Machine
end

section
/-! Texts laid in rows: what a word joined, a word on a new row, a word that opens a block and a retraction make of the lines,
the character count and R21's law (02_from_stenotype_text_to_blocks.md 2.3, 2.6). -/

namespace Sys2Proof.Machine

/-! ### Lines and counts -/

theorem length_joinWords_concat (r : List TextWord) (w : TextWord) :
    (joinWords (r ++ [w])).length = if r = [] then w.length else (joinWords r).length + 1 + w.length := by
  induction r with
  | nil => rfl
  | cons v r ih =>
    cases r with
    | nil => simp [joinWords]; omega
    | cons u r =>
      have shape : joinWords (v :: u :: r ++ [w]) = v ++ spaceByte :: joinWords (u :: r ++ [w]) := rfl
      rw [shape]
      simp only [List.length_append, List.length_cons, ih, joinWords, reduceCtorEq, if_false]
      omega

/-- The places row 1 gives to the two characters that mark a speaker (R22). -/
def Text.prefixLength (t : Text) : Nat := if t.speaker then 2 else 0

theorem length_speakerPrefix : speakerPrefix.length = 2 := rfl

theorem Text.lines_one {t : Text} {r : List TextWord} (rows : t.rows = [r]) :
    t.lines = [if t.speaker then speakerPrefix ++ joinWords r else joinWords r] := by
  simp [Text.lines, rows]

theorem Text.lines_two {t : Text} {r q : List TextWord} (rows : t.rows = [r, q]) :
    t.lines = [if t.speaker then speakerPrefix ++ joinWords r else joinWords r, joinWords q] := by
  simp [Text.lines, rows]

theorem length_firstLine (speaker : Bool) (r : List TextWord) :
    (if speaker then speakerPrefix ++ joinWords r else joinWords r).length =
      (if speaker then 2 else 0) + (joinWords r).length := by
  cases speaker <;> simp [length_speakerPrefix]

theorem Text.lastLength_one {t : Text} {r : List TextWord} (rows : t.rows = [r]) :
    t.lastLength = t.prefixLength + (joinWords r).length := by
  simp only [Text.lastLength, t.lines_one rows, List.getLast?_singleton, length_firstLine, Text.prefixLength]

theorem Text.lastLength_two {t : Text} {r q : List TextWord} (rows : t.rows = [r, q]) :
    t.lastLength = (joinWords q).length := by
  simp [Text.lastLength, t.lines_two rows]

theorem Text.count_none {t : Text} (rows : t.rows = []) : t.count = 0 := by
  simp [Text.count, Text.lines, rows]

@[simp] theorem Text.count_empty : Text.empty.count = 0 := rfl

theorem Text.count_one {t : Text} {r : List TextWord} (rows : t.rows = [r]) :
    t.count = t.prefixLength + (joinWords r).length := by
  simp only [Text.count, t.lines_one rows, List.map_cons, List.map_nil, List.sum_singleton, length_firstLine,
    Text.prefixLength]

theorem Text.count_two {t : Text} {r q : List TextWord} (rows : t.rows = [r, q]) :
    t.count = t.prefixLength + (joinWords r).length + (joinWords q).length := by
  simp only [Text.count, t.lines_two rows, List.map_cons, List.map_nil, List.sum_cons, List.sum_nil, length_firstLine,
    Text.prefixLength]
  omega

/-! ### R21's law by rows -/

/-- R21's law of a text of one row. -/
theorem Text.laid_one {W : Nat} {t : Text} {r : List TextWord} (rows : t.rows = [r]) :
    t.Laid W ↔ r ≠ [] ∧ (∀ w ∈ r, w ≠ []) ∧ 1 ≤ t.prefixLength + (joinWords r).length ∧
      t.prefixLength + (joinWords r).length ≤ W := by
  simp only [Text.Laid, t.lines_one rows, rows, List.mem_singleton, forall_eq, length_firstLine, Text.prefixLength]
  simp
  tauto

/-- R21's law of a text of two rows. -/
theorem Text.laid_two {W : Nat} {t : Text} {r q : List TextWord} (rows : t.rows = [r, q]) :
    t.Laid W ↔ q ≠ [] ∧ (∀ w ∈ r, w ≠ []) ∧ (∀ w ∈ q, w ≠ []) ∧
      (1 ≤ t.prefixLength + (joinWords r).length ∧ t.prefixLength + (joinWords r).length ≤ W) ∧
      1 ≤ (joinWords q).length ∧ (joinWords q).length ≤ W := by
  simp only [Text.Laid, t.lines_two rows, rows, List.mem_cons, List.not_mem_nil, or_false, forall_eq_or_imp, forall_eq,
    length_firstLine, Text.prefixLength]
  simp
  tauto

/-- A laid text has one row or two. -/
theorem Text.Laid.rows_cases {W : Nat} {t : Text} (laid : t.Laid W) : (∃ r, t.rows = [r]) ∨ ∃ r q, t.rows = [r, q] := by
  obtain ⟨one | two, -⟩ := laid
  · exact .inl (List.length_eq_one_iff.mp one)
  · exact .inr (List.length_eq_two.mp two)

theorem Text.Laid.rows_ne_nil {W : Nat} {t : Text} (laid : t.Laid W) : t.rows ≠ [] := by
  rcases laid.rows_cases with ⟨r, rows⟩ | ⟨r, q, rows⟩ <;> simp [rows]

theorem Text.LaidOrNone.laid {W : Nat} {t : Text} (laid : t.LaidOrNone W) (word : t.hasWord = true) : t.Laid W := by
  rcases laid with none | laid
  · simp [Text.hasWord, none] at word
  · exact laid

theorem Text.Laid.hasWord {W : Nat} {t : Text} (laid : t.Laid W) : t.hasWord = true := by
  rw [hasWord_of_laid (.inr laid)]
  simpa using laid.rows_ne_nil

@[simp] theorem Text.empty_laidOrNone (W : Nat) : Text.empty.LaidOrNone W := .inl rfl

@[simp] theorem Text.hasWord_empty : Text.empty.hasWord = false := rfl

theorem length_joinWords_le_mem {r : List TextWord} {w : TextWord} (mem : w ∈ r) : w.length ≤ (joinWords r).length := by
  induction r with
  | nil => simp at mem
  | cons v r ih =>
    cases r with
    | nil => simp_all [joinWords]
    | cons u r =>
      simp only [joinWords, List.length_append, List.length_cons]
      rcases List.mem_cons.mp mem with rfl | mem
      · omega
      · have := ih mem
        omega

theorem length_joinWords_pos {r : List TextWord} (row : r ≠ []) (words : ∀ w ∈ r, w ≠ []) : 1 ≤ (joinWords r).length := by
  obtain ⟨w, mem⟩ := List.exists_mem_of_ne_nil r row
  have held := length_joinWords_le_mem mem
  have : w.length ≠ 0 := by simpa using words w mem
  omega

/-! ### A word finds its place (R21, R22) -/

theorem Text.opened_laid {W : Nat} {mark : Bool} {w : TextWord} (wide : 2 ≤ W) (word : w ≠ []) (fits : w.length ≤ W) :
    (Text.opened W mark w).Laid W := by
  have long : 1 ≤ w.length := List.length_pos_iff.mpr word
  unfold Text.opened
  split
  · split
    · refine (Text.laid_one (r := [w]) rfl).mpr ?_
      simp [Text.prefixLength, joinWords, word]
      omega
    · refine (Text.laid_two (r := []) (q := [w]) rfl).mpr ?_
      simp [Text.prefixLength, joinWords, word]
      omega
  · refine (Text.laid_one (r := [w]) rfl).mpr ?_
    simp [Text.prefixLength, joinWords, word]
    omega

theorem Text.count_opened (W : Nat) (mark : Bool) (w : TextWord) :
    (Text.opened W mark w).count = w.length + if mark then 2 else 0 := by
  unfold Text.opened
  cases mark
  · simp [Text.count, Text.lines, joinWords]
  · by_cases beside : 2 + w.length ≤ W
    · simp [beside, Text.count, Text.lines, joinWords, speakerPrefix]
    · simp [beside, Text.count, Text.lines, joinWords, speakerPrefix]
      omega

theorem Text.joined_rows_one {t : Text} {r : List TextWord} (rows : t.rows = [r]) (w : TextWord) :
    (t.joined w).rows = [r ++ [w]] := by simp [Text.joined, rows, joinLastRow]

theorem Text.joined_rows_two {t : Text} {r q : List TextWord} (rows : t.rows = [r, q]) (w : TextWord) :
    (t.joined w).rows = [r, q ++ [w]] := by simp [Text.joined, rows, joinLastRow]

theorem Text.withRow_rows_one {t : Text} {r : List TextWord} (rows : t.rows = [r]) (w : TextWord) :
    (t.withRow w).rows = [r, [w]] := by simp [Text.withRow, rows]

@[simp] theorem Text.prefixLength_joined (t : Text) (w : TextWord) : (t.joined w).prefixLength = t.prefixLength := rfl

@[simp] theorem Text.prefixLength_withRow (t : Text) (w : TextWord) : (t.withRow w).prefixLength = t.prefixLength := rfl

/-- A word that fits the last row beside a space leaves the text laid. -/
theorem Text.Laid.joined {W : Nat} {t : Text} {w : TextWord} (laid : t.Laid W) (word : w ≠ [])
    (fits : t.lastLength + 1 + w.length ≤ W) : (t.joined w).Laid W := by
  rcases laid.rows_cases with ⟨r, rows⟩ | ⟨r, q, rows⟩
  · obtain ⟨row, words, low, high⟩ := (Text.laid_one rows).mp laid
    rw [Text.lastLength_one rows] at fits
    rw [Text.laid_one (t.joined_rows_one rows w), t.prefixLength_joined, length_joinWords_concat, if_neg row]
    refine ⟨by simp, ?_, by omega, by omega⟩
    simpa [or_imp, forall_and, word] using words
  · obtain ⟨row, words, words', bounds, low, high⟩ := (Text.laid_two rows).mp laid
    rw [Text.lastLength_two rows] at fits
    rw [Text.laid_two (t.joined_rows_two rows w), t.prefixLength_joined, length_joinWords_concat, if_neg row]
    refine ⟨by simp, words, ?_, bounds, by omega, by omega⟩
    simpa [or_imp, forall_and, word] using words'

theorem Text.Laid.count_joined {W : Nat} {t : Text} (laid : t.Laid W) (w : TextWord) :
    (t.joined w).count = t.count + (w.length + 1) := by
  rcases laid.rows_cases with ⟨r, rows⟩ | ⟨r, q, rows⟩
  · have row := ((Text.laid_one rows).mp laid).1
    rw [Text.count_one rows, Text.count_one (t.joined_rows_one rows w), length_joinWords_concat, if_neg row,
      t.prefixLength_joined]
    omega
  · have row := ((Text.laid_two rows).mp laid).1
    rw [Text.count_two rows, Text.count_two (t.joined_rows_two rows w), length_joinWords_concat, if_neg row,
      t.prefixLength_joined]
    omega

/-- A word on a second row of its own leaves the text laid. -/
theorem Text.Laid.withRow {W : Nat} {t : Text} {w : TextWord} (laid : t.Laid W) (one : t.rows.length < 2) (word : w ≠ [])
    (fits : w.length ≤ W) : (t.withRow w).Laid W := by
  rcases laid.rows_cases with ⟨r, rows⟩ | ⟨r, q, rows⟩
  · obtain ⟨row, words, bounds⟩ := (Text.laid_one rows).mp laid
    have long : 1 ≤ w.length := List.length_pos_iff.mpr word
    rw [Text.laid_two (t.withRow_rows_one rows w)]
    simpa [joinWords, word, long, fits] using ⟨words, bounds⟩
  · simp [rows] at one

theorem Text.Laid.count_withRow {W : Nat} {t : Text} (laid : t.Laid W) (one : t.rows.length < 2) (w : TextWord) :
    (t.withRow w).count = t.count + w.length := by
  rcases laid.rows_cases with ⟨r, rows⟩ | ⟨r, q, rows⟩
  · rw [Text.count_one rows, Text.count_two (t.withRow_rows_one rows w), t.prefixLength_withRow, joinWords]
  · simp [rows] at one

theorem Text.fit_joins {W : Nat} {t : Text} {w : TextWord} (fit : t.fit W w = .joins) :
    t.lastLength + 1 + w.length ≤ W := by
  unfold Text.fit at fit
  split at fit
  · assumption
  · split at fit <;> cases fit

theorem Text.fit_opensRow2 {W : Nat} {t : Text} {w : TextWord} (fit : t.fit W w = .opensRow2) : t.rows.length < 2 := by
  unfold Text.fit at fit
  split at fit
  · cases fit
  · split at fit
    · assumption
    · cases fit

/-! ### A retraction (R34) -/

/-- What a retraction makes of a laid text: no text, one row less its last word, or two rows less the last word of row 2. -/
theorem Text.Laid.retracted_cases {W : Nat} {t : Text} (laid : t.Laid W) :
    t.retracted = Text.empty ∨
    (∃ r w, (t.rows = [r ++ [w]] ∨ t.rows = [r, [w]]) ∧ r ≠ [] ∧ t.retracted = { t with rows := [r] }) ∨
    ∃ r q w, t.rows = [r, q ++ [w]] ∧ q ≠ [] ∧ t.retracted = { t with rows := [r, q] } := by
  rcases laid.rows_cases with ⟨r, rows⟩ | ⟨r, q, rows⟩
  · obtain ⟨row, -⟩ := (Text.laid_one rows).mp laid
    obtain ⟨r, w, rfl⟩ := List.eq_nil_or_concat r |>.resolve_left row
    rcases r with _ | ⟨v, r⟩
    · exact .inl (by simp [Text.retracted, rows, dropLastWord, Text.hasWord])
    · exact .inr (.inl ⟨v :: r, w, .inl (by simp [rows]), by simp,
        by simp [Text.retracted, rows, dropLastWord, Text.hasWord, List.dropLast_cons_of_ne_nil]⟩)
  · obtain ⟨row, -⟩ := (Text.laid_two rows).mp laid
    obtain ⟨q, w, rfl⟩ := List.eq_nil_or_concat q |>.resolve_left row
    rcases q with _ | ⟨v, q⟩
    · rcases r with _ | ⟨u, r⟩
      · exact .inl (by simp [Text.retracted, rows, dropLastWord, Text.hasWord])
      · exact .inr (.inl ⟨u :: r, w, .inr (by simp [rows]), by simp,
          by simp [Text.retracted, rows, dropLastWord, Text.hasWord]⟩)
    · exact .inr (.inr ⟨r, v :: q, w, by simp [rows], by simp,
        by simp [Text.retracted, rows, dropLastWord, Text.hasWord, List.dropLast_cons_of_ne_nil]⟩)

/-- A retraction leaves no text or one still laid. -/
theorem Text.Laid.retracted {W : Nat} {t : Text} (laid : t.Laid W) : t.retracted.LaidOrNone W := by
  rcases laid.retracted_cases with left | ⟨r, w, rows, row, left⟩ | ⟨r, q, w, rows, row, left⟩
  · rw [left]
    exact Text.empty_laidOrNone W
  · refine .inr ?_
    rw [left, Text.laid_one (r := r) rfl]
    rcases rows with rows | rows
    · obtain ⟨-, words, -, high⟩ := (Text.laid_one rows).mp laid
      rw [length_joinWords_concat, if_neg row] at high
      have kept : ∀ v ∈ r, v ≠ [] := fun v mem => words v (by simp [mem])
      have := length_joinWords_pos row kept
      simp only [Text.prefixLength] at high ⊢
      exact ⟨row, kept, by omega, by omega⟩
    · obtain ⟨-, words, -, bounds, -⟩ := (Text.laid_two rows).mp laid
      exact ⟨row, words, bounds⟩
  · refine .inr ?_
    rw [left, Text.laid_two (r := r) (q := q) rfl]
    obtain ⟨-, words, words', bounds, -, high⟩ := (Text.laid_two rows).mp laid
    rw [length_joinWords_concat, if_neg row] at high
    have kept : ∀ v ∈ q, v ≠ [] := fun v mem => words' v (by simp [mem])
    exact ⟨row, words, kept, bounds, length_joinWords_pos row kept, by omega⟩

/-- The count falls by what the retraction takes. -/
theorem Text.Laid.count_retracted_le {W : Nat} {t : Text} (laid : t.Laid W) : t.retracted.count ≤ t.count := by
  rcases laid.retracted_cases with left | ⟨r, w, rows, row, left⟩ | ⟨r, q, w, rows, row, left⟩
  · simp [left]
  · rw [left, Text.count_one (r := r) rfl]
    rcases rows with rows | rows
    · rw [Text.count_one rows, length_joinWords_concat, if_neg row]
      simp only [Text.prefixLength]
      omega
    · rw [Text.count_two rows]
      simp only [Text.prefixLength]
      omega
  · rw [left, Text.count_two (r := r) (q := q) rfl, Text.count_two rows, length_joinWords_concat, if_neg row]
    simp only [Text.prefixLength]
    omega

theorem Text.LaidOrNone.retracted {W : Nat} {t : Text} (laid : t.LaidOrNone W) : t.retracted.LaidOrNone W := by
  rcases laid with none | laid
  · simp [Text.retracted, none, dropLastWord, Text.hasWord]
  · exact laid.retracted

/-- A retraction that leaves no word leaves no text. -/
theorem Text.retracted_eq_empty {t : Text} (none : t.retracted.hasWord = false) : t.retracted = Text.empty := by
  unfold Text.retracted at none ⊢
  dsimp only at none ⊢
  split at none
  · simp_all
  · rw [if_neg ‹_›]

end Sys2Proof.Machine
end

section
/-! What every operation keeps, whatever the state it starts from: the straps, the sticky flags set (R168), the texts laid in
rows (R21), the Script Store's limits (R41) and the capacities (R30, R70, R154, R165). The relation, the updates of one
unit, and the shared operations. -/

namespace Sys2Proof.Machine

theorem State.rowWidth_congr {s t : State} (h : t.straps = s.straps) : t.rowWidth = s.rowWidth := by
  simp only [State.rowWidth, h]

/-! ### The invariants by unit -/

/-- The texts of a claim are laid (R21). -/
def Claim.Laid (W : Nat) (c : Claim) : Prop := c.text.Laid W ∧ ∀ t ∈ c.revision, t.Laid W

/-- The texts of the Block Builder are laid (R19, R21). -/
structure BlockBuilder.Laid (W : Nat) (t : BlockBuilder) : Prop where
  word : t.word.length ≤ W
  openText : t.openText.LaidOrNone W
  queue : ∀ b ∈ t.queue, b.text.Laid W

/-- The texts of the Script Store are laid (R19, R21, R39). -/
structure ScriptStore.Laid (W : Nat) (u : ScriptStore) : Prop where
  loadWord : u.loadWord.length ≤ W
  loadText : u.loadText.LaidOrNone W
  stored : ∀ t ∈ u.stored, t.Laid W

/-- The Script Store's limits, its count of characters and its pointer (R39, R41, R43). -/
structure ScriptStore.Counted (u : ScriptStore) : Prop where
  chars : u.storedChars = (u.stored.map Text.count).sum + u.loadText.count
  charLimit : u.storedChars ≤ storeCharacters
  blockLimit : u.blockCount ≤ storeBlocks
  pointer_pos : 1 ≤ u.pointer
  pointer_le : u.pointer ≤ u.stored.length + 1
  pointer_loading : u.load ≠ .notLoading → u.pointer = 1

/-- The texts that started packets were read from are laid. -/
def LineUnit.Laid (W : Nat) (l : LineUnit) : Prop := ∀ q ∈ l.queue ++ l.waiting, q.SentLaid W

/-- The Line Interface within its capacities (R154). -/
structure LineUnit.Within (l : LineUnit) : Prop where
  queue : l.queue.length ≤ transmitCapacity
  started : (l.queue.filter QPacket.started).length ≤ 1
  waiting : ∀ q ∈ l.waiting, q.sent = none
  states : ((l.queue ++ l.waiting).filter fun q => q.kind.isState).length ≤ 1
  peers : l.peers.length = 16
  lastSender : l.lastSender ≤ 16

/-- The Claim List within its capacities (R70). -/
def claimsWithin (l : List Claim) : Prop := l.length ≤ 4 ∧ notOnAir l ≤ 2

theorem TextOk.builder {s : State} (ok : TextOk s) : s.text.Laid s.rowWidth := by
  obtain ⟨word, openText, queue, -⟩ := ok
  exact ⟨word, openText, queue⟩

theorem TextOk.claims {s : State} (ok : TextOk s) : ∀ c ∈ s.claims, c.Laid s.rowWidth := by
  obtain ⟨-, -, -, -, -, -, claims, -⟩ := ok
  exact claims

theorem TextOk.line {s : State} (ok : TextOk s) : s.line.Laid s.rowWidth := by
  obtain ⟨-, -, -, -, -, -, -, line⟩ := ok
  exact line

theorem TextOk.script {s : State} (ok : TextOk s) : s.script.Laid s.rowWidth := by
  obtain ⟨-, -, -, loadWord, loadText, stored, -⟩ := ok
  exact ⟨loadWord, loadText, stored⟩

theorem scriptOk_iff {s : State} :
    ScriptOk s ↔ (∀ t ∈ s.script.stored, t.Laid s.rowWidth) ∧ s.script.loadText.LaidOrNone s.rowWidth ∧
      s.script.Counted :=
  ⟨fun ⟨stored, loadText, h1, h2, h3, h4, h5, h6⟩ => ⟨stored, loadText, h1, h2, h3, h4, h5, h6⟩,
    fun ⟨stored, loadText, h1, h2, h3, h4, h5, h6⟩ => ⟨stored, loadText, h1, h2, h3, h4, h5, h6⟩⟩

theorem CapacityOk.line {s : State} (ok : CapacityOk s) : s.line.Within := by
  obtain ⟨-, -, queue, started, waiting, states, -, -, peers, lastSender⟩ := ok
  exact ⟨queue, started, waiting, states, peers, lastSender⟩

theorem CapacityOk.claims {s : State} (ok : CapacityOk s) : claimsWithin s.claims := by
  obtain ⟨-, -, -, -, -, -, length, notOnAir, -⟩ := ok
  exact ⟨length, notOnAir⟩

theorem CapacityOk.blocks {s : State} (ok : CapacityOk s) : s.text.queue.length ≤ blockCapacity := ok.1

theorem CapacityOk.reports {s : State} (ok : CapacityOk s) : s.report.queue.length ≤ reportCapacity := ok.2.1

/-! ### The relation -/

/-- What `r` has and every operation on the way to `s` keeps. -/
structure Kept (r s : State) : Prop where
  straps : s.straps = r.straps
  flags : ∀ f, r.report.flags.has f = true → s.report.flags.has f = true
  text : TextOk r → TextOk s
  script : TextOk r → ScriptOk r → ScriptOk s
  capacity : CapacityOk r → CapacityOk s

@[refl] theorem Kept.refl (s : State) : Kept s s := ⟨rfl, fun _ h => h, id, fun _ => id, id⟩

@[simp] theorem kept_self (s : State) : Kept s s := .refl s

theorem Kept.trans {r s t : State} (h : Kept r s) (k : Kept s t) : Kept r t where
  straps := k.straps.trans h.straps
  flags f has := k.flags f (h.flags f has)
  text ok := k.text (h.text ok)
  script ok ok' := k.script (h.text ok) (h.script ok ok')
  capacity ok := k.capacity (h.capacity ok)

theorem Kept.rowWidth {r s : State} (h : Kept r s) : s.rowWidth = r.rowWidth := State.rowWidth_congr h.straps

/-! ### Updates of a unit the relation does not read -/

section
variable {r s : State}

@[simp] theorem kept_modRef (f : RefUnit → RefUnit) : Kept r (s.modRef f) ↔ Kept r s :=
  ⟨fun h => ⟨h.1, h.2, h.3, h.4, h.5⟩, fun h => ⟨h.1, h.2, h.3, h.4, h.5⟩⟩

@[simp] theorem kept_modTimer (f : CueTimer → CueTimer) : Kept r (s.modTimer f) ↔ Kept r s :=
  ⟨fun h => ⟨h.1, h.2, h.3, h.4, h.5⟩, fun h => ⟨h.1, h.2, h.3, h.4, h.5⟩⟩

@[simp] theorem kept_setMap (l : List Cue) : Kept r (s.setMap l) ↔ Kept r s :=
  ⟨fun h => ⟨h.1, h.2, h.3, h.4, h.5⟩, fun h => ⟨h.1, h.2, h.3, h.4, h.5⟩⟩

@[simp] theorem kept_modFloor (f : Floor → Floor) : Kept r (s.modFloor f) ↔ Kept r s :=
  ⟨fun h => ⟨h.1, h.2, h.3, h.4, h.5⟩, fun h => ⟨h.1, h.2, h.3, h.4, h.5⟩⟩

@[simp] theorem kept_modPacing (f : PacingSet → PacingSet) : Kept r (s.modPacing f) ↔ Kept r s :=
  ⟨fun h => ⟨h.1, h.2, h.3, h.4, h.5⟩, fun h => ⟨h.1, h.2, h.3, h.4, h.5⟩⟩

@[simp] theorem kept_modItem (f : ItemState → ItemState) : Kept r (s.modItem f) ↔ Kept r s :=
  ⟨fun h => ⟨h.1, h.2, h.3, h.4, h.5⟩, fun h => ⟨h.1, h.2, h.3, h.4, h.5⟩⟩

@[simp] theorem kept_modStation (f : StationUnit → StationUnit) : Kept r (s.modStation f) ↔ Kept r s :=
  ⟨fun h => ⟨h.1, h.2, h.3, h.4, h.5⟩, fun h => ⟨h.1, h.2, h.3, h.4, h.5⟩⟩

@[simp] theorem kept_openOrders (k : Nat) : Kept r { s with openOrders := k } ↔ Kept r s :=
  ⟨fun h => ⟨h.1, h.2, h.3, h.4, h.5⟩, fun h => ⟨h.1, h.2, h.3, h.4, h.5⟩⟩

/-! ### Updates of a unit it reads -/

theorem Kept.modText {f : BlockBuilder → BlockBuilder} (h : Kept r s)
    (laid : TextOk r → TextOk s → (f s.text).Laid s.rowWidth)
    (within : CapacityOk s → (f s.text).queue.length ≤ blockCapacity) : Kept r (s.modText f) where
  straps := h.straps
  flags := h.flags
  text ok := by
    obtain ⟨word, openText, queue⟩ := laid ok (h.text ok)
    obtain ⟨-, -, -, rest⟩ := h.text ok
    exact ⟨word, openText, queue, rest⟩
  script := h.script
  capacity ok := by
    obtain ⟨-, rest⟩ := h.capacity ok
    exact ⟨within (h.capacity ok), rest⟩

theorem Kept.setClaims {l : List Claim} (h : Kept r s)
    (laid : TextOk r → TextOk s → ∀ c ∈ l, c.Laid s.rowWidth)
    (within : CapacityOk s → claimsWithin l) : Kept r (s.setClaims l) where
  straps := h.straps
  flags := h.flags
  text ok := by
    have claims := laid ok (h.text ok)
    obtain ⟨word, openText, queue, loadWord, loadText, stored, -, line⟩ := h.text ok
    exact ⟨word, openText, queue, loadWord, loadText, stored, claims, line⟩
  script := h.script
  capacity ok := by
    obtain ⟨length, notOnAir⟩ := within (h.capacity ok)
    obtain ⟨blocks, reports, queue, started, waiting, states, -, -, rest⟩ := h.capacity ok
    exact ⟨blocks, reports, queue, started, waiting, states, length, notOnAir, rest⟩

theorem Kept.modLine {f : LineUnit → LineUnit} (h : Kept r s)
    (laid : TextOk r → TextOk s → (f s.line).Laid s.rowWidth)
    (within : CapacityOk r → CapacityOk s → (f s.line).Within) : Kept r (s.modLine f) where
  straps := h.straps
  flags := h.flags
  text ok := by
    have line := laid ok (h.text ok)
    obtain ⟨word, openText, queue, loadWord, loadText, stored, claims, -⟩ := h.text ok
    exact ⟨word, openText, queue, loadWord, loadText, stored, claims, line⟩
  script := h.script
  capacity ok := by
    obtain ⟨queue, started, waiting, states, peers, lastSender⟩ := within ok (h.capacity ok)
    obtain ⟨blocks, reports, -, -, -, -, claims, notOnAir, -⟩ := h.capacity ok
    exact ⟨blocks, reports, queue, started, waiting, states, claims, notOnAir, peers, lastSender⟩

theorem Kept.modReport {f : ReportUnit → ReportUnit} (h : Kept r s)
    (flags : ∀ k, s.report.flags.has k = true → (f s.report).flags.has k = true)
    (within : CapacityOk s → (f s.report).queue.length ≤ reportCapacity) : Kept r (s.modReport f) where
  straps := h.straps
  flags k has := flags k (h.flags k has)
  text := h.text
  script := h.script
  capacity ok := by
    obtain ⟨blocks, -, rest⟩ := h.capacity ok
    exact ⟨blocks, within (h.capacity ok), rest⟩

theorem Kept.modScript {f : ScriptStore → ScriptStore} (h : Kept r s)
    (laid : TextOk s → (f s.script).Laid s.rowWidth)
    (counted : TextOk s → s.script.Counted → (f s.script).Counted) : Kept r (s.modScript f) where
  straps := h.straps
  flags := h.flags
  text ok := by
    obtain ⟨loadWord, loadText, stored⟩ := laid (h.text ok)
    obtain ⟨word, openText, queue, -, -, -, claims, line⟩ := h.text ok
    exact ⟨word, openText, queue, loadWord, loadText, stored, claims, line⟩
  script ok ok' := by
    obtain ⟨-, loadText, stored⟩ := laid (h.text ok)
    exact scriptOk_iff.mpr ⟨stored, loadText, counted (h.text ok) (scriptOk_iff.mp (h.script ok ok')).2.2⟩
  capacity := h.capacity

/-! ### Reports and flags -/

@[simp] theorem kept_flag (f : Sticky) (h : Kept r s) : Kept r (s.flag f) :=
  h.modReport (fun _ has => raise_has_of_has has) fun ok => ok.reports

@[simp] theorem kept_flagIf (b : Bool) (f : Sticky) (h : Kept r s) : Kept r (State.flagIf b f s) := by
  unfold State.flagIf
  split
  · exact kept_flag f h
  · exact h

@[simp] theorem kept_pushReport (p : Report) (h : Kept r s) : Kept r (pushReport p s) :=
  h.modReport (fun _ has => pushReport_has has) fun ok => by
    have room := makeReportRoom_queue_length s.report ok.reports
    simp only [List.length_append, List.length_singleton]
    omega

@[simp] theorem kept_pushReports (l : List Report) (h : Kept r s) : Kept r (pushReports l s) := by
  induction l generalizing s with
  | nil => exact h
  | cons p l ih => exact ih (kept_pushReport p h)

/-! ### The claims -/

theorem claimsWithin_sublist {l k : List Claim} (sub : l.Sublist k) (within : claimsWithin k) : claimsWithin l :=
  ⟨sub.length_le.trans within.1, ((sub.filter _).length_le).trans within.2⟩

/-- Claims that leave the list keep the rest as they were. -/
theorem Kept.sublistClaims {l : List Claim} (h : Kept r s) (sub : l.Sublist s.claims) : Kept r (s.setClaims l) :=
  h.setClaims (fun _ ok c mem => ok.claims c (sub.subset mem)) fun ok => claimsWithin_sublist sub ok.claims

/-- No claim that was on air is off it after the change. -/
theorem notOnAir_map_le {g : Claim → Claim} {l : List Claim}
    (air : ∀ c ∈ l, c.state = .onAir → (g c).state = .onAir) : notOnAir (l.map g) ≤ notOnAir l := by
  induction l with
  | nil => exact Nat.le_refl _
  | cons c l ih =>
    have head := air c (by simp)
    have tail := ih fun d mem => air d (by simp [mem])
    simp only [notOnAir, List.map_cons, List.filter_cons] at tail ⊢
    split
    · have : c.state ≠ .onAir := fun on => by simp_all
      simp [this]
      exact tail
    · split
      · exact Nat.le_succ_of_le tail
      · exact tail

/-- A change of claims that keeps their texts laid and takes none off air. -/
theorem Kept.mapClaims {g : Claim → Claim} (h : Kept r s) (air : ∀ c ∈ s.claims, c.state = .onAir → (g c).state = .onAir)
    (laid : TextOk r → ∀ c ∈ s.claims, c.Laid s.rowWidth → (g c).Laid s.rowWidth) :
    Kept r (s.setClaims (s.claims.map g)) := by
  refine h.setClaims (fun ok ok' c mem => ?_) fun ok => ?_
  · obtain ⟨d, known, rfl⟩ := List.mem_map.mp mem
    exact laid ok d known (ok'.claims d known)
  · obtain ⟨length, within⟩ := ok.claims
    exact ⟨by simpa using length, (notOnAir_map_le air).trans within⟩

/-- A change of one claim's record that keeps its texts laid and its state. -/
theorem Kept.updateClaim {g : Claim → Claim} (seq : Byte) (h : Kept r s) (state : ∀ c, (g c).state = c.state)
    (laid : TextOk r → ∀ c ∈ s.claims, c.seq = seq → c.Laid s.rowWidth → (g c).Laid s.rowWidth) :
    Kept r (updateClaim seq g s) := by
  refine h.mapClaims (fun c _ air => ?_) fun ok c mem laid' => ?_
  · split
    · rw [state, air]
    · exact air
  · split
    · exact laid ok c mem ‹_› laid'
    · exact laid'

theorem Claim.Laid.noRevision {W : Nat} {c : Claim} (laid : c.Laid W) : Claim.Laid W { c with revision := none } :=
  ⟨laid.1, by simp⟩

/-! ### The Transmit Queue -/

theorem LineUnit.Within.sublist {l k : LineUnit} (within : k.Within) (queue : l.queue.Sublist k.queue)
    (waiting : l.waiting.Sublist k.waiting) (peers : l.peers = k.peers) (sender : l.lastSender = k.lastSender) :
    l.Within where
  queue := queue.length_le.trans within.queue
  started := ((queue.filter _).length_le).trans within.started
  waiting q mem := within.waiting q (waiting.subset mem)
  states := (((queue.append waiting).filter _).length_le).trans within.states
  peers := peers ▸ within.peers
  lastSender := sender ▸ within.lastSender

theorem LineUnit.Laid.sublist {W : Nat} {l k : LineUnit} (laid : k.Laid W) (queue : l.queue.Sublist k.queue)
    (waiting : l.waiting.Sublist k.waiting) : l.Laid W :=
  fun q mem => laid q ((queue.append waiting).subset mem)

/-- Packets and waiting requests that leave keep the rest as they were. -/
theorem Kept.sublistLine {f : LineUnit → LineUnit} (h : Kept r s) (queue : (f s.line).queue.Sublist s.line.queue)
    (waiting : (f s.line).waiting.Sublist s.line.waiting) (peers : (f s.line).peers = s.line.peers)
    (sender : (f s.line).lastSender = s.line.lastSender) : Kept r (s.modLine f) :=
  h.modLine (fun _ ok => ok.line.sublist queue waiting) fun _ ok => ok.line.sublist queue waiting peers sender

/-- The line after the entry of waiting requests. -/
def LineUnit.entered (l : LineUnit) : LineUnit :=
  { l with queue := l.queue ++ l.waiting.take (classPlaces - l.queue.length),
           waiting := l.waiting.drop (classPlaces - l.queue.length) }

/-- The entry of waiting requests: the line, and an own ITEM that enters. -/
theorem enterWaiting_eq (s : State) :
    enterWaiting s = { s with
      line := s.line.entered,
      item := { s.item with own :=
        if (s.line.waiting.take (classPlaces - s.line.queue.length)).any (fun q => decide (q.kind = .item)) = true then
          .queued else s.item.own } } := by
  unfold enterWaiting
  dsimp only
  split <;> rfl

theorem enterWaiting_line (s : State) : (enterWaiting s).line = s.line.entered := by rw [enterWaiting_eq]

/-- No packet is lost or made where waiting requests enter. -/
theorem LineUnit.entered_packets (l : LineUnit) : l.entered.queue ++ l.entered.waiting = l.queue ++ l.waiting := by
  simp [LineUnit.entered]

theorem LineUnit.Within.entered {l : LineUnit} (within : l.Within) : l.entered.Within where
  queue := by
    have := within.queue
    have : transmitCapacity = 8 := rfl
    have : classPlaces = 7 := rfl
    simp only [LineUnit.entered, List.length_append, List.length_take]
    omega
  started := by
    have none : (l.waiting.take (classPlaces - l.queue.length)).filter QPacket.started = [] :=
      List.filter_eq_nil_iff.mpr fun q mem => by simp [QPacket.started, within.waiting q (List.mem_of_mem_take mem)]
    simpa only [LineUnit.entered, List.filter_append, none, List.append_nil] using within.started
  waiting q mem := within.waiting q (List.mem_of_mem_drop mem)
  states := by
    rw [l.entered_packets]
    exact within.states
  peers := within.peers
  lastSender := within.lastSender

@[simp] theorem kept_enterWaiting (h : Kept r s) : Kept r (enterWaiting s) := by
  have line : Kept r (s.modLine LineUnit.entered) :=
    h.modLine (fun _ ok q mem => ok.line q (s.line.entered_packets ▸ mem)) fun _ ok => ok.line.entered
  unfold enterWaiting
  dsimp only
  split
  · exact (kept_modItem _).mpr line
  · exact line

/-- The line with a request made. -/
def LineUnit.asked (k : PacketKind) (l : LineUnit) : LineUnit :=
  if l.queue.length < classPlaces then { l with queue := l.queue ++ [.fresh k] }
  else { l with waiting := l.waiting ++ [.fresh k] }

theorem requestPacket_eq (k : PacketKind) (s : State) : requestPacket k s = { s with line := s.line.asked k } := by
  unfold requestPacket LineUnit.asked
  split <;> rfl

theorem QPacket.fresh_sentLaid (k : PacketKind) (W : Nat) : (QPacket.fresh k).SentLaid W := trivial

/-- A request is one packet more in the queue or among the waiting requests. -/
theorem LineUnit.asked_perm (k : PacketKind) (l : LineUnit) :
    ((l.asked k).queue ++ (l.asked k).waiting).Perm (.fresh k :: (l.queue ++ l.waiting)) := by
  unfold LineUnit.asked
  split
  · simp
  · simp [← List.append_assoc]

theorem LineUnit.Laid.asked {W : Nat} {l : LineUnit} (laid : l.Laid W) (k : PacketKind) : (l.asked k).Laid W := by
  intro q mem
  rcases List.mem_cons.mp ((l.asked_perm k).mem_iff.mp mem) with rfl | mem
  · exact QPacket.fresh_sentLaid k W
  · exact laid q mem

/-- A request is not a packet that has started. -/
theorem LineUnit.Within.asked {l : LineUnit} {k : PacketKind} (within : l.Within)
    (state : k.isState = true → ∀ q ∈ l.queue ++ l.waiting, q.kind.isState = false) : (l.asked k).Within := by
  have capacity : transmitCapacity = 8 := rfl
  have places : classPlaces = 7 := rfl
  have states : (((l.asked k).queue ++ (l.asked k).waiting).filter fun q => q.kind.isState).length ≤ 1 := by
    rw [((l.asked_perm k).filter _).length_eq, List.filter_cons]
    split
    · have none : ((l.queue ++ l.waiting).filter fun q => q.kind.isState) = [] :=
        List.filter_eq_nil_iff.mpr fun q mem => by simp [state ‹_› q mem]
      simp [none]
    · exact within.states
  unfold LineUnit.asked at states ⊢
  split
  · rw [if_pos ‹_›] at states
    refine ⟨?_, ?_, within.waiting, states, within.peers, within.lastSender⟩
    · simp only [List.length_append, List.length_singleton]
      omega
    · simpa [QPacket.fresh, QPacket.started] using within.started
  · rw [if_neg ‹_›] at states
    refine ⟨within.queue, within.started, ?_, states, within.peers, within.lastSender⟩
    simpa [or_imp, forall_and, QPacket.fresh] using within.waiting

theorem Kept.requestPacket {k : PacketKind} (h : Kept r s)
    (state : k.isState = true → ∀ q ∈ s.line.queue ++ s.line.waiting, q.kind.isState = false) :
    Kept r (requestPacket k s) := by
  rw [requestPacket_eq]
  exact h.modLine (f := LineUnit.asked k) (fun _ ok => ok.line.asked k) fun _ ok => ok.line.asked state

theorem kept_requestPacket {k : PacketKind} (other : k.isState = false) (h : Kept r s) :
    Kept r (requestPacket k s) := h.requestPacket fun is => by simp [other] at is

@[simp] theorem kept_removeUnstarted (p : PacketKind → Bool) (h : Kept r s) : Kept r (removeUnstarted p s) :=
  kept_enterWaiting (h.sublistLine List.filter_sublist List.filter_sublist rfl rfl)

@[simp] theorem PacketKind.isState_cue (q : Byte) : (PacketKind.cue q).isState = false := rfl
@[simp] theorem PacketKind.isState_revise (q : Byte) : (PacketKind.revise q).isState = false := rfl
@[simp] theorem PacketKind.isState_take (b : Bool) : (PacketKind.take b).isState = false := rfl
@[simp] theorem PacketKind.isState_yield : PacketKind.yield.isState = false := rfl
@[simp] theorem PacketKind.isState_item : PacketKind.item.isState = false := rfl
@[simp] theorem PacketKind.isState_cut (q : Byte) (off : Frame) : (PacketKind.cut q off).isState = false := rfl
@[simp] theorem PacketKind.isState_state : PacketKind.state.isState = true := rfl

theorem PacketKind.isState_iff (k : PacketKind) : k.isState = true ↔ k = .state := by
  cases k <;> simp [PacketKind.isState]

/-! ### The Block Queue -/

@[simp] theorem kept_dropOverflow (h : Kept r s) : Kept r (dropOverflow s) := by
  unfold dropOverflow
  split
  · rename_i b rest queue
    split
    · refine kept_pushReport _ (kept_flag _ ((kept_modTimer _).mpr (h.modText (fun _ ok => ?_) fun ok => ?_)))
      · obtain ⟨word, openText, laid⟩ := ok.builder
        exact ⟨word, openText, fun x mem => laid x (by simp [queue, mem])⟩
      · have := ok.blocks
        simp only [queue, List.length_cons] at this
        exact Nat.le_of_succ_le this
    · exact h
  · exact h

/-- A full queue has dropped its head when a block enters its tail. -/
theorem dropOverflow_queue_length {s : State} (within : s.text.queue.length ≤ blockCapacity) :
    (dropOverflow s).text.queue.length < blockCapacity := by
  have capacity : blockCapacity = 16 := rfl
  rcases Nat.lt_or_ge s.text.queue.length blockCapacity with room | full
  · rwa [dropOverflow_room room]
  · cases queue : s.text.queue with
    | nil => simp [queue] at full; omega
    | cons b rest =>
      rw [dropOverflow_full queue full]
      simp only [queue, List.length_cons] at within
      simp
      omega

/-- A queue that has room for one more after an overflow drop. -/
theorem kept_enterTail {b : Block} (laid : TextOk r → b.text.Laid r.rowWidth) (h : Kept r s) : Kept r (enterTail b s) := by
  refine kept_pushReport _ ⟨?_, ?_, fun ok => ?_, fun ok ok' => ?_, fun ok => ?_⟩
  · simpa using h.straps
  · exact (kept_dropOverflow h).flags
  · have dropped := (kept_dropOverflow h).text ok
    obtain ⟨word, openText, queue, rest⟩ := dropped
    refine ⟨word, openText, fun x mem => ?_, rest⟩
    rcases List.mem_append.mp mem with mem | mem
    · exact queue x mem
    · rw [List.mem_singleton.mp mem]
      exact (kept_dropOverflow h).rowWidth ▸ laid ok
  · exact (kept_dropOverflow h).script ok ok'
  · have room := dropOverflow_queue_length (h.capacity ok).blocks
    obtain ⟨-, rest⟩ := (kept_dropOverflow h).capacity ok
    refine ⟨?_, rest⟩
    simp only [State.modText_text, List.length_append, List.length_singleton]
    omega

theorem kept_enterHead {b : Block} (laid : TextOk r → b.text.Laid r.rowWidth) (h : Kept r s) : Kept r (enterHead b s) := by
  unfold enterHead
  split
  · exact kept_pushReport _ (kept_flag _ h)
  · refine (kept_modTimer _).mpr (h.modText (fun ok ok' => ?_) fun _ => ?_)
    · obtain ⟨word, openText, queue⟩ := ok'.builder
      refine ⟨word, openText, fun x mem => ?_⟩
      rcases List.mem_cons.mp mem with rfl | mem
      · exact h.rowWidth ▸ laid ok
      · exact queue x mem
    · simp only [List.length_cons]
      omega

theorem kept_enterHeads {l : List Block} (laid : TextOk r → ∀ b ∈ l, b.text.Laid r.rowWidth) (h : Kept r s) :
    Kept r (enterHeads l s) := by
  induction l with
  | nil => exact h
  | cons b l ih =>
    exact kept_enterHead (fun ok => laid ok b (by simp)) (ih fun ok x mem => laid ok x (by simp [mem]))

/-! ### The Claim List -/

theorem notPlannedFrom_sublist (p : Claim → Bool) (l : List Claim) : (notPlannedFrom p l).Sublist l := by
  induction l with
  | nil => exact .slnil
  | cons c l ih =>
    unfold notPlannedFrom
    split
    · exact .cons _ List.filter_sublist
    · exact ih.cons_cons c

@[simp] theorem kept_removePlanned (p : Claim → Bool) (h : Kept r s) : Kept r (removePlanned p s) :=
  kept_removeUnstarted _ (h.sublistClaims (notPlannedFrom_sublist p s.claims))

@[simp] theorem kept_handBack (p : Claim → Bool) (h : Kept r s) : Kept r (handBack p s) := by
  refine kept_enterHeads (fun ok b mem => ?_) (kept_removePlanned p h)
  obtain ⟨c, planned, rfl⟩ := List.mem_map.mp mem
  have known := ((plannedFrom_split p s.claims).1 c).mpr (.inl planned)
  exact h.rowWidth ▸ ((h.text ok).claims c known).1

@[simp] theorem kept_dropPlanned (p : Claim → Bool) (h : Kept r s) : Kept r (dropPlanned p s) :=
  kept_pushReports _ (kept_removePlanned p h)

@[simp] theorem kept_dropRevision (seq : Byte) (h : Kept r s) : Kept r (dropRevision seq s) :=
  kept_removeUnstarted _ (h.updateClaim seq (fun _ => rfl) fun _ _ _ _ laid => laid.noRevision)

@[simp] theorem kept_lateRevisions (l : List Claim) (h : Kept r s) : Kept r (lateRevisions l s) := by
  induction l generalizing s with
  | nil => exact h
  | cons c l ih =>
    refine ih ?_
    split <;> simp [h]

@[simp] theorem kept_leaveFloorClaims (h : Kept r s) : Kept r (leaveFloorClaims s) := by simp [leaveFloorClaims, h]

/-! ### The floor -/

@[simp] theorem kept_setFloor (f : FloorState) : Kept r (setFloor f s) ↔ Kept r s := kept_modFloor _
@[simp] theorem kept_setHolder (k : Option Nat) : Kept r (setHolder k s) ↔ Kept r s := kept_modFloor _
@[simp] theorem kept_setSuccessor (k : Option Nat) : Kept r (setSuccessor k s) ↔ Kept r s := kept_modFloor _
@[simp] theorem kept_enterYielding : Kept r (enterYielding s) ↔ Kept r s := by simp [enterYielding]
@[simp] theorem kept_startBidWait : Kept r (startBidWait s) ↔ Kept r s := kept_modFloor _

@[simp] theorem kept_endBid (h : Kept r s) : Kept r (endBid s) := by simp [endBid, h]

@[simp] theorem kept_loseBid (h : Kept r s) : Kept r (loseBid s) := by simp [loseBid, h]

@[simp] theorem kept_becomeLive (h : Kept r s) : Kept r (becomeLive s) := by
  unfold becomeLive
  dsimp only
  split <;> simp [h]

@[simp] theorem kept_holdFloor (h : Kept r s) : Kept r (holdFloor s) := by
  unfold holdFloor
  (repeat' split) <;> simp [h]

@[simp] theorem kept_leaveFloor (h : Kept r s) : Kept r (leaveFloor s) := by simp [leaveFloor, h]

/-! ### Give-up, CUTs and withdrawal -/

@[simp] theorem kept_reviseGivenUp (seq : Byte) (h : Kept r s) : Kept r (reviseGivenUp seq s) := by
  unfold reviseGivenUp
  split
  · split
    · exact kept_requestPacket rfl h
    · exact kept_pushReport _ (h.updateClaim seq (fun _ => rfl) fun _ _ _ _ laid => laid.noRevision)
  · exact h

@[simp] theorem kept_cutGivenUp (seq : Byte) (h : Kept r s) : Kept r (cutGivenUp seq s) := by
  have stands : Kept r (updateClaim seq (fun c => { c with withdrawal := none, emptied := false }) s) :=
    h.updateClaim seq (fun _ => rfl) fun _ _ _ _ laid => laid
  simp only [cutGivenUp]
  (repeat' split) <;> simp [h, stands]

@[simp] theorem kept_queueYield (h : Kept r s) : Kept r (queueYield s) := by
  unfold queueYield
  split
  · exact kept_requestPacket rfl h
  · exact h

@[simp] theorem kept_ownerGivesUp (k : PacketKind) (h : Kept r s) : Kept r (ownerGivesUp k s) := by
  cases k with
  | take forced =>
    simp only [ownerGivesUp]
    split <;> simp [h]
  | cut => simp [ownerGivesUp, h]
  | cue => simp [ownerGivesUp, h]
  | revise => simp [ownerGivesUp, h]
  | yield => simp [ownerGivesUp, h]
  | item => simp [ownerGivesUp, h]
  | state => exact h

@[simp] theorem kept_giveUp (k : PacketKind) (h : Kept r s) : Kept r (giveUp k s) :=
  kept_ownerGivesUp k (kept_enterWaiting (kept_flag _ h))

@[simp] theorem kept_removeAt (i : Nat) (h : Kept r s) : Kept r (removeAt i s) :=
  h.sublistLine (List.eraseIdx_sublist ..) (.refl _) rfl rfl

@[simp] theorem kept_displaceAt (i : Nat) (h : Kept r s) : Kept r (displaceAt i s) := by
  unfold displaceAt
  split <;> simp [h]

@[simp] theorem kept_makeCutRoom (h : Kept r s) : Kept r (makeCutRoom s) := by
  unfold makeCutRoom
  (repeat' split) <;> simp [h]

end

end Sys2Proof.Machine
end

section
/-! What every operation keeps, continued: the CUT that always finds room (R155), the end of a claim, the Row Map's work. -/

namespace Sys2Proof.Machine

/-! ### Room for a CUT (R155) -/

theorem LineUnit.entered_room {l : LineUnit} (room : l.queue.length ≤ classPlaces) :
    l.entered.queue.length ≤ classPlaces := by
  simp only [LineUnit.entered, List.length_append, List.length_take]
  omega

@[simp] theorem enterWaiting_room {s : State} (room : s.line.queue.length ≤ classPlaces) :
    (enterWaiting s).line.queue.length ≤ classPlaces := by
  rw [enterWaiting_line]
  exact LineUnit.entered_room room

@[simp] theorem requestPacket_room {k : PacketKind} {s : State} (room : s.line.queue.length ≤ classPlaces) :
    (requestPacket k s).line.queue.length ≤ classPlaces := by
  unfold requestPacket
  split
  · simpa using ‹_›
  · exact room

@[simp] theorem removeUnstarted_room (p : PacketKind → Bool) {s : State} (room : s.line.queue.length ≤ classPlaces) :
    (removeUnstarted p s).line.queue.length ≤ classPlaces :=
  enterWaiting_room ((List.length_filter_le ..).trans room)

theorem reviseGivenUp_room (seq : Byte) {s : State} (room : s.line.queue.length ≤ classPlaces) :
    (reviseGivenUp seq s).line.queue.length ≤ classPlaces := by
  unfold reviseGivenUp
  (repeat' split) <;> simp [room]

theorem loseBid_room {s : State} (room : s.line.queue.length ≤ classPlaces) :
    (loseBid s).line.queue.length ≤ classPlaces := by
  have bid : (endBid s).line.queue.length ≤ classPlaces := removeUnstarted_room _ room
  simpa [loseBid] using bid

theorem queueYield_room {s : State} (room : s.line.queue.length ≤ classPlaces) :
    (queueYield s).line.queue.length ≤ classPlaces := by
  unfold queueYield
  split <;> simp [room]

/-- The owner of a given-up packet fills no place kept for class 0. -/
theorem ownerGivesUp_room (k : PacketKind) {s : State} (room : s.line.queue.length ≤ classPlaces) :
    (ownerGivesUp k s).line.queue.length ≤ classPlaces := by
  cases k with
  | cue seq =>
    have left : (removePlanned (fun c => decide (c.seq = seq)) s).line.queue.length ≤ classPlaces :=
      removeUnstarted_room _ room
    simpa [ownerGivesUp, handBack] using left
  | revise seq => exact reviseGivenUp_room seq room
  | cut seq off => simp [ownerGivesUp, room]
  | take forced =>
    simp only [ownerGivesUp]
    split
    · exact loseBid_room room
    · exact room
  | yield => exact queueYield_room room
  | item => exact room
  | state => exact room

theorem giveUp_room (k : PacketKind) {s : State} (room : s.line.queue.length ≤ classPlaces) :
    (giveUp k s).line.queue.length ≤ classPlaces :=
  ownerGivesUp_room k (enterWaiting_room (by simpa using room))

theorem removeAt_queue_length {i : Nat} {s : State} (at_ : i < s.line.queue.length) :
    (removeAt i s).line.queue.length = s.line.queue.length - 1 := by
  simp [removeAt, List.length_eraseIdx, at_]

theorem displaceAt_room {i : Nat} {s : State} (at_ : i < s.line.queue.length)
    (within : s.line.queue.length ≤ transmitCapacity) : (displaceAt i s).line.queue.length ≤ classPlaces := by
  have capacity : transmitCapacity = 8 := rfl
  have places : classPlaces = 7 := rfl
  rw [displaceAt, List.getElem?_eq_getElem at_]
  exact giveUp_room _ (by rw [removeAt_queue_length at_]; omega)

theorem lastIdx?_lt {p : QPacket → Bool} {l : List QPacket} {i : Nat} (found : lastIdx? p l = some i) : i < l.length := by
  simp only [lastIdx?, Option.map_eq_some_iff, List.findIdx?_eq_some_iff_findIdx_eq] at found
  obtain ⟨j, ⟨below, -⟩, rfl⟩ := found
  simp at below
  omega

theorem lastIdx?_eq_none {p : QPacket → Bool} {l : List QPacket} (none : lastIdx? p l = none) : ∀ q ∈ l, p q = false := by
  simpa [lastIdx?] using none

/-- A packet of some class is left when none of the three is. -/
theorem PacketKind.cls_cases (k : PacketKind) : k.cls = 0 ∨ k.cls = 1 ∨ k.cls = 2 := by
  cases k <;> simp [PacketKind.cls]

/-- A full queue with one packet in transmission at most has a packet that a CUT may displace. -/
theorem makeCutRoom_room {s : State} (within : s.line.queue.length ≤ transmitCapacity)
    (started : (s.line.queue.filter QPacket.started).length ≤ 1) (full : transmitCapacity ≤ s.line.queue.length) :
    (makeCutRoom s).line.queue.length ≤ classPlaces := by
  have capacity : transmitCapacity = 8 := rfl
  have places : classPlaces = 7 := rfl
  unfold makeCutRoom
  split
  · rename_i i found
    obtain ⟨below, -⟩ := List.findIdx?_eq_some_iff_findIdx_eq.mp found
    rw [removeAt_queue_length below]
    omega
  · rename_i none2
    split
    · exact displaceAt_room (lastIdx?_lt ‹_›) within
    · rename_i none1
      split
      · rename_i i found
        exact displaceAt_room (List.findIdx?_eq_some_iff_findIdx_eq.mp found).1 within
      · rename_i none0
        have all : s.line.queue.filter QPacket.started = s.line.queue := List.filter_eq_self.mpr fun q mem => by
          have not2 := List.findIdx?_eq_none_iff.mp none2 q mem
          have not1 := lastIdx?_eq_none none1 q mem
          have not0 := List.findIdx?_eq_none_iff.mp none0 q mem
          rcases q.kind.cls_cases with cls | cls | cls <;> simp_all
        rw [all] at started
        omega

/-- What stands before a CUT that enters the Transmit Queue: a place is free for it. -/
theorem queueCut_queue (seq : Byte) (off : Frame) (mark : ResetMark) (s : State) :
    ∃ u : State, (u = s ∧ s.line.queue.length < transmitCapacity ∨
        u = makeCutRoom s ∧ transmitCapacity ≤ s.line.queue.length) ∧
      queueCut seq off mark s =
        u.modLine fun l => { l with queue := l.queue ++ [{ QPacket.fresh (.cut seq off) with mark := mark }] } := by
  unfold queueCut
  dsimp only
  split
  · exact ⟨_, .inr ⟨rfl, ‹_›⟩, rfl⟩
  · exact ⟨_, .inl ⟨rfl, by omega⟩, rfl⟩

section
variable {r s : State}

@[simp] theorem kept_queueCut (seq : Byte) (off : Frame) (mark : ResetMark) (h : Kept r s) :
    Kept r (queueCut seq off mark s) := by
  obtain ⟨u, room, eq⟩ := queueCut_queue seq off mark s
  have kept : Kept r u := by
    rcases room with ⟨rfl, -⟩ | ⟨rfl, -⟩
    · exact h
    · exact kept_makeCutRoom h
  rw [eq]
  refine kept.modLine (fun _ ok q mem => ?_) fun ok ok' => ?_
  · simp only [List.append_assoc, List.mem_append, List.mem_singleton] at mem
    rcases mem with mem | rfl | mem
    · exact ok.line q (List.mem_append_left _ mem)
    · exact QPacket.fresh_sentLaid (.cut seq off) u.rowWidth
    · exact ok.line q (List.mem_append_right _ mem)
  · have places : u.line.queue.length < transmitCapacity := by
      rcases room with ⟨rfl, room⟩ | ⟨rfl, full⟩
      · exact room
      · have line := (h.capacity ok).line
        exact Nat.lt_succ_of_le (makeCutRoom_room line.queue line.started full)
    refine ⟨?_, ?_, ok'.line.waiting, ?_, ok'.line.peers, ok'.line.lastSender⟩
    · simp only [List.length_append, List.length_singleton]
      omega
    · simpa [QPacket.fresh, QPacket.started] using ok'.line.started
    · simpa [QPacket.fresh] using ok'.line.states

@[simp] theorem kept_withdraw (seq : Byte) (off : Frame) (mark : ResetMark) (h : Kept r s) :
    Kept r (withdraw seq off mark s) :=
  kept_queueCut _ _ _ (kept_dropRevision _ (h.updateClaim seq (fun _ => rfl) fun _ _ _ _ laid => laid))

/-! ### The end of a claim -/

@[simp] theorem kept_endClaim (seq : Byte) (h : Kept r s) : Kept r (endClaim seq s) := by
  unfold endClaim
  split
  · exact kept_pushReport _ (kept_removeUnstarted _ (h.sublistClaims List.eraseP_sublist))
  · exact h

@[simp] theorem kept_conflictLoss (seq : Byte) (h : Kept r s) : Kept r (conflictLoss seq s) := by
  simp only [conflictLoss]
  (repeat' split) <;> simp [h]

@[simp] theorem kept_cueGone (why : MapEnd) (c : Cue) (h : Kept r s) : Kept r (cueGone why c s) := by
  unfold cueGone
  (repeat' split) <;> simp [h]

@[simp] theorem kept_cuesGone (why : MapEnd) (l : List Cue) (h : Kept r s) : Kept r (cuesGone why l s) := by
  induction l generalizing s with
  | nil => exact h
  | cons c l ih => exact ih (kept_cueGone why c h)

/-! ### The Row Map -/

@[simp] theorem kept_makeRowRoom (inHand : Cue → Bool) (row : Nat) (h : Kept r s) : Kept r (makeRowRoom inHand row s) := by
  unfold makeRowRoom
  (repeat' split) <;> simp [h]

@[simp] theorem kept_makeEntries (inHand : Cue → Bool) (c : Cue) (h : Kept r s) : Kept r (makeEntries inHand c s) := by
  unfold makeEntries
  dsimp only
  split <;> simp [h]

@[simp] theorem kept_conflictTest (c : Cue) (h : Kept r s) : Kept r (conflictTest c s) := by
  unfold conflictTest
  dsimp only
  split <;> simp [h]

@[simp] theorem kept_boundNeighbours (c : Cue) (h : Kept r s) : Kept r (boundNeighbours c s) := by
  unfold boundNeighbours
  split <;> simp [h]

@[simp] theorem kept_expireCues (h : Kept r s) : Kept r (expireCues s) := by simp [expireCues, h]

@[simp] theorem kept_mapCue (sender : Nat) (b : CueBody) (h : Kept r s) : Kept r (mapCue sender b s) :=
  kept_boundNeighbours _ (kept_conflictTest _ (kept_makeEntries _ _ ((kept_setMap _).mpr h)))

@[simp] theorem kept_mapRevise (sender : Nat) (b : CueBody) (h : Kept r s) : Kept r (mapRevise sender b s) := by
  unfold mapRevise
  split <;> simp [h]

@[simp] theorem kept_makeAllEntries (inHand : Cue → Bool) (l : List Cue) (h : Kept r s) :
    Kept r (makeAllEntries inHand l s) := by
  induction l generalizing s with
  | nil => exact h
  | cons c l ih => exact ih (kept_makeEntries _ _ ((kept_setMap _).mpr h))

@[simp] theorem kept_testAll (l : List Cue) (h : Kept r s) : Kept r (testAll l s) := by
  induction l generalizing s with
  | nil => exact h
  | cons c l ih =>
    refine ih ?_
    split <;> simp [h]

@[simp] theorem kept_boundAll (l : List Cue) (h : Kept r s) : Kept r (boundAll l s) := by
  induction l generalizing s with
  | nil => exact h
  | cons c l ih => exact ih (kept_boundNeighbours c h)

@[simp] theorem kept_mapState (sender : Nat) (l : List StateClaim) (h : Kept r s) : Kept r (mapState sender l s) :=
  kept_boundAll _ (kept_testAll _ (kept_makeAllEntries _ _ ((kept_setMap _).mpr h)))

@[simp] theorem kept_mapCut (sender : Nat) (seq : Byte) (off : Frame) (h : Kept r s) : Kept r (mapCut sender seq off s) := by
  unfold mapCut
  (repeat' split) <;> simp [h]

@[simp] theorem kept_itemCut (b : Frame) : Kept r (itemCut b s) ↔ Kept r s := kept_setMap _

@[simp] theorem kept_overtakenTest (h : Kept r s) : Kept r (overtakenTest s) := kept_handBack _ h

@[simp] theorem kept_staleWaiting (h : Kept r s) : Kept r (staleWaiting s) := kept_handBack _ h

/-- The claims as they go on air. -/
theorem kept_airClaims (step : Bool) (h : Kept r s) : Kept r (s.setClaims (airClaims step s)) := by
  refine h.mapClaims (fun c _ air => ?_) fun _ c _ laid => ?_
  · split
    · rfl
    · exact air
  · split
    · exact laid
    · exact laid

@[simp] theorem kept_showAndExpire (step : Bool) (h : Kept r s) : Kept r (showAndExpire step s) :=
  kept_cuesGone _ _ (kept_pushReports _ (kept_cuesGone _ _ ((kept_setMap _).mpr
    ((kept_openOrders _).mpr (kept_airClaims step h)))))

end

end Sys2Proof.Machine
end

section
/-! What every operation keeps, continued: the Block Builder (02), the Script Store (03). -/

namespace Sys2Proof.Machine

/-! ### The word in formation -/

@[simp] theorem dropOverflow_word (s : State) : (dropOverflow s).text.word = s.text.word := by
  unfold dropOverflow
  split
  · split <;> simp
  · rfl

@[simp] theorem closeBlock_word (cause : CloseCause) (s : State) : (closeBlock cause s).text.word = s.text.word := by
  simp [closeBlock, enterTail]

@[simp] theorem placeWord_word (w : TextWord) (a : Frame) (s : State) : (placeWord w a s).text.word = s.text.word := by
  unfold placeWord openBlock
  split
  · rfl
  · split <;> simp

@[simp] theorem completeWord_word (s : State) : (completeWord s).text.word = [] := by
  unfold completeWord
  split
  · exact List.isEmpty_iff.mp ‹_›
  · simp

@[simp] theorem completeAndTest_word (s : State) : (completeAndTest s).text.word = [] := by
  unfold completeAndTest
  dsimp only
  split
  · exact List.isEmpty_iff.mp ‹_›
  · split <;> simp

theorem Text.rows_ne_nil_of_hasWord {t : Text} (word : t.hasWord = true) : t.rows ≠ [] := by
  intro none
  simp [Text.hasWord, none] at word

theorem completeWord_of_word {s : State} (word : s.text.word ≠ []) :
    completeWord s = placeWord s.text.word (s.text.wordArrival.getD s.n)
      (s.modText fun t => { t with word := [], wordArrival := none }) :=
  if_neg (by simpa using word)

theorem completeWord_of_no_word {s : State} (word : s.text.word = []) : completeWord s = s :=
  if_pos (by simp [word])

theorem completeWord_hasWord {s : State} (word : s.text.word ≠ []) : (completeWord s).text.openText.hasWord = true := by
  rw [completeWord_of_word word]
  exact placeWord_hasWord ..

section
variable {r s : State}

/-! ### The Compose Buffer -/

@[simp] theorem kept_closeBlock (cause : CloseCause) (rows : s.text.openText.rows ≠ []) (h : Kept r s) :
    Kept r (closeBlock cause s) := by
  refine kept_enterTail (fun ok => ?_) (h.modText (fun _ ok => ?_) fun ok => ok.blocks)
  · rcases (h.text ok).builder.openText with none | laid
    · exact absurd none rows
    · exact h.rowWidth ▸ laid
  · exact ⟨ok.builder.word, Text.empty_laidOrNone _, ok.builder.queue⟩

theorem kept_openBlock {w : TextWord} {a : Frame} (word : w ≠ []) (fits : TextOk r → w.length ≤ r.rowWidth)
    (h : Kept r s) : Kept r (openBlock w a s) := by
  refine h.modText (fun ok ok' => ?_) fun ok => ok.blocks
  have wide := s.rowWidth_range
  exact ⟨ok'.builder.word, .inr (Text.opened_laid (by omega) word (h.rowWidth ▸ fits ok)), ok'.builder.queue⟩

theorem kept_placeWord {w : TextWord} {a : Frame} (word : w ≠ []) (fits : TextOk r → w.length ≤ r.rowWidth)
    (h : Kept r s) : Kept r (placeWord w a s) := by
  unfold placeWord
  split
  · exact kept_openBlock word fits h
  · rename_i rows
    have rows : s.text.openText.rows ≠ [] := by simpa using rows
    have laid (ok : TextOk s) : s.text.openText.Laid s.rowWidth := ok.builder.openText.resolve_left rows
    split
    · rename_i fit
      refine h.modText (fun _ ok => ?_) fun ok => ok.blocks
      exact ⟨ok.builder.word, .inr ((laid ok).joined word (Text.fit_joins fit)), ok.builder.queue⟩
    · rename_i fit
      refine h.modText (fun ok ok' => ?_) fun ok => ok.blocks
      exact ⟨ok'.builder.word, .inr ((laid ok').withRow (Text.fit_opensRow2 fit) word (h.rowWidth ▸ fits ok)),
        ok'.builder.queue⟩
    · exact kept_openBlock word fits (kept_closeBlock .full rows h)

@[simp] theorem kept_completeWord (h : Kept r s) : Kept r (completeWord s) := by
  rcases eq_or_ne s.text.word [] with word | word
  · rwa [completeWord_of_no_word word]
  · rw [completeWord_of_word word]
    refine kept_placeWord word (fun ok => h.rowWidth ▸ (h.text ok).builder.word)
      (h.modText (fun _ ok => ?_) fun ok => ok.blocks)
    exact ⟨by simp, ok.builder.openText, ok.builder.queue⟩

@[simp] theorem kept_completeAndTest (h : Kept r s) : Kept r (completeAndTest s) := by
  unfold completeAndTest
  dsimp only
  split
  · exact h
  · rename_i word
    split
    · exact kept_closeBlock _ (Text.rows_ne_nil_of_hasWord (completeWord_hasWord (by simpa using word))) (kept_completeWord h)
    · exact kept_completeWord h

@[simp] theorem kept_closeOpen (cause : CloseCause) (h : Kept r s) : Kept r (closeOpen cause s) := by
  unfold closeOpen
  dsimp only
  split
  · exact kept_completeWord h
  · rename_i open_
    refine kept_closeBlock _ (Text.rows_ne_nil_of_hasWord ?_) (kept_completeWord h)
    simpa [BlockBuilder.composeEmpty] using open_

/-- A change of the Block Builder that keeps its texts and its queue. -/
theorem Kept.modTextCounts {f : BlockBuilder → BlockBuilder} (h : Kept r s) (word : (f s.text).word = s.text.word)
    (openText : (f s.text).openText = s.text.openText) (queue : (f s.text).queue = s.text.queue) :
    Kept r (s.modText f) := by
  refine h.modText (fun _ ok => ?_) fun ok => queue ▸ ok.blocks
  exact ⟨word ▸ ok.builder.word, openText ▸ ok.builder.openText, queue ▸ ok.builder.queue⟩

@[simp] theorem kept_restartIdle (h : Kept r s) : Kept r (restartIdle s) := h.modTextCounts rfl rfl rfl

@[simp] theorem kept_tickIdle (h : Kept r s) : Kept r (tickIdle s) := h.modTextCounts rfl rfl rfl

/-- A character joins a word that has room for it (R19). -/
theorem kept_addCharacter {c : Byte} (room : s.text.word.length < s.rowWidth) (h : Kept r s) :
    Kept r (addCharacter c s) := by
  unfold addCharacter
  split
  · refine h.modText (fun _ ok => ⟨?_, ok.builder.openText, ok.builder.queue⟩) fun ok => ok.blocks
    simp only [List.length_singleton]
    omega
  · refine h.modText (fun _ ok => ⟨?_, ok.builder.openText, ok.builder.queue⟩) fun ok => ok.blocks
    simpa using room

@[simp] theorem kept_builderCharacter (c : Byte) (h : Kept r s) : Kept r (builderCharacter c s) := by
  refine kept_restartIdle ?_
  split
  · exact kept_completeAndTest h
  · split
    · refine kept_addCharacter ?_ (kept_completeAndTest h)
      have := (completeAndTest s).rowWidth_range
      simp
      omega
    · exact kept_addCharacter (by omega) h

@[simp] theorem kept_idleCloseAct (h : Kept r s) : Kept r (idleCloseAct s) := by
  unfold idleCloseAct
  split <;> simp [h]

/-- Blocks that leave the Block Queue keep the rest as they were. -/
theorem Kept.sublistBlocks {f : BlockBuilder → BlockBuilder} (h : Kept r s) (word : (f s.text).word = s.text.word)
    (openText : (f s.text).openText = s.text.openText) (queue : (f s.text).queue.Sublist s.text.queue) :
    Kept r (s.modText f) := by
  refine h.modText (fun _ ok => ?_) fun ok => queue.length_le.trans ok.blocks
  exact ⟨word ▸ ok.builder.word, openText ▸ ok.builder.openText, fun b mem => ok.builder.queue b (queue.subset mem)⟩

@[simp] theorem kept_ageQueue (h : Kept r s) : Kept r (ageQueue s) := by
  unfold ageQueue
  dsimp only
  split
  · exact h
  · exact kept_pushReports _ (kept_flag _ ((kept_modTimer _).mpr (h.sublistBlocks rfl rfl List.filter_sublist)))

@[simp] theorem kept_modText_emptied (h : Kept r s) : Kept r (s.modText BlockBuilder.emptied) :=
  h.modText (fun _ _ => ⟨by simp [BlockBuilder.emptied], Text.empty_laidOrNone _, by simp [BlockBuilder.emptied]⟩)
    fun _ => by simp [BlockBuilder.emptied]

@[simp] theorem kept_yieldDiscard (h : Kept r s) : Kept r (yieldDiscard s) := by
  simp [yieldDiscard, h]

/-! ### Retraction -/

@[simp] theorem kept_composeRetract (h : Kept r s) : Kept r (composeRetract s) := by
  unfold composeRetract
  dsimp only
  split
  · split
    · refine h.modText (fun _ ok => ?_) fun ok => ok.blocks
      exact ⟨ok.builder.word, ok.builder.openText.retracted, ok.builder.queue⟩
    · refine h.modText (fun _ ok => ?_) fun ok => ok.blocks
      exact ⟨ok.builder.word, Text.empty_laidOrNone _, ok.builder.queue⟩
  · refine h.modText (fun _ ok => ?_) fun ok => ok.blocks
    exact ⟨by simp, ok.builder.openText, ok.builder.queue⟩

@[simp] theorem kept_queueRetract (h : Kept r s) : Kept r (queueRetract s) := by
  unfold queueRetract
  split
  · rename_i b last
    obtain ⟨rest, queue⟩ := List.getLast?_eq_some_iff.mp last
    refine kept_pushReport _ ?_
    split
    · rename_i left
      refine h.modText (fun _ ok => ⟨ok.builder.word, ok.builder.openText, fun x mem => ?_⟩) fun ok => ?_
      · rcases List.mem_append.mp mem with mem | mem
        · exact ok.builder.queue x (List.mem_of_mem_dropLast mem)
        · rw [List.mem_singleton.mp mem]
          exact (ok.builder.queue b (by simp [queue])).retracted.laid left
      · have := ok.blocks
        simpa [queue] using this
    · exact (kept_modTimer _).mpr (h.sublistBlocks rfl rfl (List.dropLast_sublist _))
  · exact h

theorem newestClaim_mem {l : List Claim} {c : Claim} (newest : newestClaim l = some c) : c ∈ l :=
  List.mem_of_mem_filter (List.mem_of_getLast? newest)

theorem kept_editPlanned {c : Claim} (listed : c ∈ s.claims) (h : Kept r s) : Kept r (editPlanned c s) := by
  refine kept_pushReport _ ?_
  split
  · rename_i left
    refine h.updateClaim c.seq (fun _ => rfl) fun ok d _ _ laid => ⟨?_, laid.2⟩
    exact ((h.text ok).claims c listed).1.retracted.laid left
  · exact kept_removeUnstarted _ (h.sublistClaims List.eraseP_sublist)

/-- The revision of a claim, or its text where it holds none, is laid. -/
theorem Claim.Laid.revised_laid {W : Nat} {c : Claim} (laid : c.Laid W) : (c.revision.getD c.text).Laid W := by
  cases held : c.revision with
  | none => exact laid.1
  | some t => exact laid.2 t (by simp [held])

theorem kept_reviseClaim {c : Claim} (listed : c ∈ s.claims) (h : Kept r s) : Kept r (reviseClaim c s) := by
  unfold reviseClaim
  dsimp only
  split
  · rename_i left
    have shortened : Kept r (updateClaim c.seq
        (fun d => { d with revision := some (c.revision.getD c.text).retracted }) s) := by
      refine h.updateClaim c.seq (fun _ => rfl) fun ok d _ _ laid => ⟨laid.1, fun t held => ?_⟩
      rw [← Option.mem_some.mp held]
      exact ((h.text ok).claims c listed).revised_laid.retracted.laid left
    split
    · exact shortened
    · exact kept_requestPacket rfl shortened
  · exact kept_withdraw _ _ _ (h.updateClaim c.seq (fun _ => rfl) fun _ _ _ _ laid => laid)

@[simp] theorem kept_claimRetract (h : Kept r s) : Kept r (claimRetract s) := by
  unfold claimRetract
  split
  · exact kept_pushReport _ h
  · rename_i c newest
    split
    · exact kept_editPlanned (newestClaim_mem newest) h
    · split
      · exact kept_reviseClaim (newestClaim_mem newest) h
      · exact kept_pushReport _ h

@[simp] theorem kept_liveRetract (h : Kept r s) : Kept r (liveRetract s) := by
  unfold liveRetract
  (repeat' split) <;> simp [h]

end

/-! ### The Script Store's own operations -/

theorem ScriptStore.blockCount_eq (u : ScriptStore) :
    u.blockCount = u.stored.length + if u.loadText.rows = [] then 0 else 1 := rfl

theorem ScriptStore.storeLoading_of_rows {W : Nat} {u : ScriptStore} (laid : u.loadText.LaidOrNone W)
    (rows : u.loadText.rows ≠ []) :
    u.storeLoading = { u with stored := u.stored ++ [u.loadText], loadText := .empty } := by
  rw [u.storeLoading_eq, hasWord_of_laid laid]
  simp [rows]

theorem ScriptStore.storeLoading_of_no_rows {u : ScriptStore} (rows : u.loadText.rows = []) : u.storeLoading = u :=
  if_neg (by simp [Text.hasWord, rows])

theorem ScriptStore.Laid.storeLoading {W : Nat} {u : ScriptStore} (laid : u.Laid W) : u.storeLoading.Laid W := by
  by_cases rows : u.loadText.rows = []
  · rwa [ScriptStore.storeLoading_of_no_rows rows]
  · rw [ScriptStore.storeLoading_of_rows laid.loadText rows]
    refine ⟨laid.loadWord, Text.empty_laidOrNone W, fun t mem => ?_⟩
    rcases List.mem_append.mp mem with mem | mem
    · exact laid.stored t mem
    · rw [List.mem_singleton.mp mem]
      exact laid.loadText.resolve_left rows

theorem ScriptStore.Counted.storeLoading {W : Nat} {u : ScriptStore} (counted : u.Counted) (laid : u.Laid W) :
    u.storeLoading.Counted := by
  by_cases rows : u.loadText.rows = []
  · rwa [ScriptStore.storeLoading_of_no_rows rows]
  · rw [ScriptStore.storeLoading_of_rows laid.loadText rows]
    refine ⟨?_, counted.charLimit, ?_, counted.pointer_pos, ?_, counted.pointer_loading⟩
    · simp [counted.chars]
    · have := counted.blockLimit
      simpa [ScriptStore.blockCount_eq, rows, Text.empty] using this
    · have := counted.pointer_le
      simp only [List.length_append, List.length_singleton]
      omega

/-- After the loading block is stored there is none. -/
theorem ScriptStore.storeLoading_no_rows {W : Nat} {u : ScriptStore} (laid : u.loadText.LaidOrNone W) :
    u.storeLoading.loadText.rows = [] := by
  by_cases rows : u.loadText.rows = []
  · rwa [ScriptStore.storeLoading_of_no_rows rows]
  · rw [ScriptStore.storeLoading_of_rows laid rows]
    rfl

/-- What a placement that opens a block makes of the store (R41). -/
theorem ScriptStore.opens_eq_some {W : Nat} {u v : ScriptStore} {w : TextWord} (opens : u.opens W w = some v) :
    u.storedChars + u.openIncrease w ≤ storeCharacters ∧ u.stored.length < storeBlocks ∧
      v = { u with loadText := Text.opened W u.loadMark w, loadMark := false,
                   storedChars := u.storedChars + u.openIncrease w } := by
  unfold ScriptStore.opens at opens
  split at opens
  · rename_i limits
    exact ⟨limits.1, limits.2, (Option.some.inj opens).symm⟩
  · cases opens

theorem ScriptStore.opens_laid {W : Nat} {u v : ScriptStore} {w : TextWord} (opens : u.opens W w = some v) (wide : 2 ≤ W)
    (word : w ≠ []) (fits : w.length ≤ W) (laid : u.Laid W) : v.Laid W := by
  obtain ⟨-, -, rfl⟩ := ScriptStore.opens_eq_some opens
  exact ⟨laid.loadWord, .inr (Text.opened_laid wide word fits), laid.stored⟩

theorem ScriptStore.opens_counted {W : Nat} {u v : ScriptStore} {w : TextWord} (opens : u.opens W w = some v)
    (none : u.loadText.rows = []) (counted : u.Counted) : v.Counted := by
  obtain ⟨chars, blocks, rfl⟩ := ScriptStore.opens_eq_some opens
  refine ⟨?_, chars, ?_, counted.pointer_pos, counted.pointer_le, counted.pointer_loading⟩
  · rw [counted.chars, Text.count_none none, Text.count_opened]
    simp [ScriptStore.openIncrease]
  · rw [ScriptStore.blockCount_eq]
    split
    · exact Nat.le_of_lt blocks
    · exact blocks

/-- A loaded word that finds its place leaves the store's texts laid and its counts right. -/
theorem ScriptStore.place_kept {W : Nat} {u v : ScriptStore} {w : TextWord} (placed : u.place W w = some v) (wide : 2 ≤ W)
    (word : w ≠ []) (fits : w.length ≤ W) (laid : u.Laid W) : v.Laid W ∧ (u.Counted → v.Counted) := by
  unfold ScriptStore.place at placed
  split at placed
  · rename_i rows
    exact ⟨ScriptStore.opens_laid placed wide word fits laid,
      ScriptStore.opens_counted placed (List.isEmpty_iff.mp rows)⟩
  · rename_i rows
    have rows : u.loadText.rows ≠ [] := by simpa using rows
    have text := laid.loadText.resolve_left rows
    split at placed
    · rename_i fit
      split at placed
      · cases placed
        have joined := text.joined word (Text.fit_joins fit)
        refine ⟨⟨laid.loadWord, .inr joined, laid.stored⟩, fun counted => ⟨?_, ‹_›, ?_, counted.pointer_pos,
          counted.pointer_le, counted.pointer_loading⟩⟩
        · rw [text.count_joined, counted.chars]
          dsimp only
          omega
        · simpa [ScriptStore.blockCount_eq, rows, joined.rows_ne_nil] using counted.blockLimit
      · cases placed
    · rename_i fit
      split at placed
      · cases placed
        have added := text.withRow (Text.fit_opensRow2 fit) word fits
        refine ⟨⟨laid.loadWord, .inr added, laid.stored⟩, fun counted => ⟨?_, ‹_›, ?_, counted.pointer_pos,
          counted.pointer_le, counted.pointer_loading⟩⟩
        · rw [text.count_withRow (Text.fit_opensRow2 fit), counted.chars]
          dsimp only
          omega
        · simpa [ScriptStore.blockCount_eq, rows, added.rows_ne_nil] using counted.blockLimit
      · cases placed
    · exact ⟨ScriptStore.opens_laid placed wide word fits laid.storeLoading, fun counted =>
        ScriptStore.opens_counted placed (ScriptStore.storeLoading_no_rows laid.loadText) (counted.storeLoading laid)⟩

theorem ScriptStore.storeLoading_pointer (u : ScriptStore) : u.storeLoading.pointer = u.pointer := by
  rw [u.storeLoading_eq]

theorem ScriptStore.fill_laid {W : Nat} {u : ScriptStore} (laid : u.Laid W) : u.fill.Laid W :=
  ⟨by simp [ScriptStore.fill], laid.storeLoading.loadText, laid.storeLoading.stored⟩

theorem ScriptStore.fill_counted {W : Nat} {u : ScriptStore} (laid : u.Laid W) (loading : u.load ≠ .notLoading)
    (counted : u.Counted) : u.fill.Counted := by
  have stored := counted.storeLoading laid
  have first : u.storeLoading.pointer = 1 := by rw [u.storeLoading_pointer, counted.pointer_loading loading]
  exact ⟨stored.chars, stored.charLimit, stored.blockLimit, stored.pointer_pos, stored.pointer_le, fun _ => first⟩

theorem ScriptStore.retracted_laid {W : Nat} {u : ScriptStore} (laid : u.Laid W) : u.retracted.Laid W := by
  unfold ScriptStore.retracted
  split
  · exact ⟨by simp, laid.loadText, laid.stored⟩
  · split
    · exact ⟨laid.loadWord, laid.loadText.retracted, laid.stored⟩
    · split
      · rename_i b last
        refine ⟨laid.loadWord, laid.loadText, fun t mem => ?_⟩
        dsimp only at mem
        split at mem
        · rcases List.mem_append.mp mem with mem | mem
          · exact laid.stored t (List.mem_of_mem_dropLast mem)
          · rw [List.mem_singleton.mp mem]
            exact (laid.stored b (List.mem_of_getLast? last)).retracted.laid ‹_›
        · exact laid.stored t (List.mem_of_mem_dropLast mem)
      · exact laid

theorem ScriptStore.retracted_counted {W : Nat} {u : ScriptStore} (laid : u.Laid W) (loading : u.load ≠ .notLoading)
    (counted : u.Counted) : u.retracted.Counted := by
  have first := counted.pointer_loading loading
  unfold ScriptStore.retracted
  split
  · exact ⟨counted.chars, counted.charLimit, counted.blockLimit, counted.pointer_pos, counted.pointer_le,
      counted.pointer_loading⟩
  · split
    · rename_i word
      have text := laid.loadText.laid word
      have shorter := text.count_retracted_le
      refine ⟨?_, (Nat.sub_le ..).trans counted.charLimit, ?_, counted.pointer_pos, counted.pointer_le,
        counted.pointer_loading⟩
      · have := counted.chars
        simp only
        omega
      · have blocks := counted.blockLimit
        rw [ScriptStore.blockCount_eq] at blocks ⊢
        rw [if_neg text.rows_ne_nil] at blocks
        dsimp only
        split <;> omega
    · split
      · rename_i b last
        obtain ⟨rest, stored⟩ := List.getLast?_eq_some_iff.mp last
        have text := laid.stored b (by simp [stored])
        have shorter := text.count_retracted_le
        have chars := counted.chars
        have blocks := counted.blockLimit
        simp only [ScriptStore.blockCount_eq, stored, List.length_append, List.length_singleton] at blocks
        simp only [stored, List.map_append, List.sum_append, List.map_cons, List.map_nil, List.sum_singleton] at chars
        refine ⟨?_, (Nat.sub_le ..).trans counted.charLimit, ?_, counted.pointer_pos, ?_, counted.pointer_loading⟩
        · simp only [stored, List.dropLast_concat]
          split
          · simp only [List.map_append, List.sum_append, List.map_cons, List.map_nil, List.sum_singleton]
            omega
          · rename_i none
            have gone := Text.retracted_eq_empty (by simpa using none)
            simp only [gone, Text.count_empty] at shorter ⊢
            omega
        · simp only [ScriptStore.blockCount_eq, stored, List.dropLast_concat]
          have shrunk : (if b.retracted.hasWord = true then rest ++ [b.retracted] else rest).length ≤ rest.length + 1 := by
            split <;> simp
          omega
        · simp only [first, stored]
          omega
      · exact counted

theorem ScriptStore.begun_kept (W : Nat) (u : ScriptStore) : u.begun.Laid W ∧ u.begun.Counted :=
  ⟨⟨by simp [ScriptStore.begun], Text.empty_laidOrNone W, by simp [ScriptStore.begun]⟩,
    ⟨rfl, by simp [ScriptStore.begun], by simp [ScriptStore.begun, ScriptStore.blockCount_eq, Text.empty],
      Nat.le_refl _, Nat.le_refl _, fun _ => rfl⟩⟩

theorem ScriptStore.reset_kept {W : Nat} {u : ScriptStore} (laid : u.Laid W) :
    u.reset.Laid W ∧ (u.Counted → u.reset.Counted) := by
  refine ⟨⟨by simp [ScriptStore.reset], Text.empty_laidOrNone W, laid.stored⟩, fun counted => ?_⟩
  have chars := counted.chars
  have blocks := counted.blockLimit
  rw [ScriptStore.blockCount_eq] at blocks
  refine ⟨?_, (Nat.sub_le ..).trans counted.charLimit, ?_, Nat.le_refl _, by simp [ScriptStore.reset], fun _ => rfl⟩
  · simp only [ScriptStore.reset, Text.count_empty]
    omega
  · simp only [ScriptStore.blockCount_eq, ScriptStore.reset, Text.empty, if_true]
    omega

section
variable {r s : State}

/-! ### The Script Store in the station -/

theorem completeLoading_cases (s : State) :
    (s.script.loadWord = [] ∧ completeLoading s = s) ∨
    (s.script.loadWord ≠ [] ∧ ∃ u, ({ s.script with loadWord := [] } : ScriptStore).place s.rowWidth s.script.loadWord = some u ∧
      completeLoading s = s.modScript fun _ => u) ∨
    (s.script.loadWord ≠ [] ∧ ({ s.script with loadWord := [] } : ScriptStore).place s.rowWidth s.script.loadWord = none ∧
      completeLoading s = (s.modScript ScriptStore.fill).flag .scriptFull) := by
  unfold completeLoading
  split
  · exact .inl ⟨List.isEmpty_iff.mp ‹_›, rfl⟩
  · rename_i word
    split
    · exact .inr (.inl ⟨by simpa using word, _, ‹_›, rfl⟩)
    · exact .inr (.inr ⟨by simpa using word, ‹_›, rfl⟩)

theorem kept_completeLoading (loading : s.script.load ≠ .notLoading) (h : Kept r s) : Kept r (completeLoading s) := by
  have wide := s.rowWidth_range
  rcases completeLoading_cases s with ⟨-, eq⟩ | ⟨word, u, placed, eq⟩ | ⟨word, -, eq⟩
  · rwa [eq]
  · rw [eq]
    have kept (ok : TextOk s) := ScriptStore.place_kept placed (by omega) word ok.script.loadWord
      ⟨by simp, ok.script.loadText, ok.script.stored⟩
    refine h.modScript (fun ok => (kept ok).1) fun ok counted => (kept ok).2 ?_
    exact ⟨counted.chars, counted.charLimit, counted.blockLimit, counted.pointer_pos, counted.pointer_le,
      counted.pointer_loading⟩
  · rw [eq]
    exact kept_flag _ (h.modScript (fun ok => ScriptStore.fill_laid ok.script)
      fun ok => ScriptStore.fill_counted ok.script loading)

/-- A change of the Script Store that keeps its texts, its counts and its pointer, or leaves no loading. -/
theorem Kept.modScriptMarks {f : ScriptStore → ScriptStore} (h : Kept r s)
    (loadWord : (f s.script).loadWord = s.script.loadWord) (loadText : (f s.script).loadText = s.script.loadText)
    (stored : (f s.script).stored = s.script.stored) (chars : (f s.script).storedChars = s.script.storedChars)
    (pointer : (f s.script).pointer = s.script.pointer)
    (load : (f s.script).load ≠ .notLoading → s.script.load ≠ .notLoading) : Kept r (s.modScript f) := by
  refine h.modScript (fun ok => ?_) fun _ counted => ?_
  · obtain ⟨word, text, laid⟩ := ok.script
    exact ⟨loadWord ▸ word, loadText ▸ text, stored ▸ laid⟩
  · refine ⟨?_, chars ▸ counted.charLimit, ?_, pointer ▸ counted.pointer_pos, ?_,
      fun loading => pointer ▸ counted.pointer_loading (load loading)⟩
    · rw [chars, stored, loadText, counted.chars]
    · rw [ScriptStore.blockCount_eq, stored, loadText]
      exact counted.blockLimit
    · rw [pointer, stored]
      exact counted.pointer_le

theorem kept_addLoading {c : Byte} (room : s.script.loadWord.length < s.rowWidth) (h : Kept r s) :
    Kept r (addLoading c s) := by
  unfold addLoading
  split
  · refine h.modScript (fun ok => ⟨?_, ok.script.loadText, ok.script.stored⟩) fun _ counted => ?_
    · simpa using room
    · exact ⟨counted.chars, counted.charLimit, counted.blockLimit, counted.pointer_pos, counted.pointer_le,
        counted.pointer_loading⟩
  · exact h

theorem ScriptStore.opens_loadWord {W : Nat} {u v : ScriptStore} {w : TextWord} (opens : u.opens W w = some v) :
    v.loadWord = u.loadWord := by
  obtain ⟨-, -, rfl⟩ := ScriptStore.opens_eq_some opens
  rfl

theorem ScriptStore.place_loadWord {W : Nat} {u v : ScriptStore} {w : TextWord} (placed : u.place W w = some v) :
    v.loadWord = u.loadWord := by
  unfold ScriptStore.place at placed
  split at placed
  · exact ScriptStore.opens_loadWord placed
  · split at placed
    · split at placed <;> cases placed
      rfl
    · split at placed <;> cases placed
      rfl
    · rw [ScriptStore.opens_loadWord placed, u.storeLoading_eq]

@[simp] theorem completeLoading_loadWord (s : State) : (completeLoading s).script.loadWord = [] := by
  rcases completeLoading_cases s with ⟨word, eq⟩ | ⟨-, u, placed, eq⟩ | ⟨-, -, eq⟩
  · rw [eq, word]
  · rw [eq]
    exact ScriptStore.place_loadWord placed
  · rw [eq]
    simp [ScriptStore.fill]

@[simp] theorem kept_storeCharacter (c : Byte) (h : Kept r s) : Kept r (storeCharacter c s) := by
  unfold storeCharacter
  split
  · rename_i load
    have loading : s.script.load ≠ .notLoading := by simp [load]
    split
    · exact kept_completeLoading loading h
    · split
      · refine kept_addLoading ?_ (kept_completeLoading loading h)
        have := (completeLoading s).rowWidth_range
        simp
        omega
      · exact kept_addLoading (by omega) h
  · exact h

@[simp] theorem kept_modScript_storeLoading (h : Kept r s) : Kept r (s.modScript ScriptStore.storeLoading) :=
  h.modScript (fun ok => ok.script.storeLoading) fun ok counted => counted.storeLoading ok.script

@[simp] theorem kept_storeEndBlock (h : Kept r s) : Kept r (storeEndBlock s) := by
  unfold storeEndBlock
  split
  · rename_i load
    exact kept_modScript_storeLoading (kept_completeLoading (by simp [load]) h)
  · exact h

@[simp] theorem kept_storeSpeaker (h : Kept r s) : Kept r (storeSpeaker s) := by
  unfold storeSpeaker
  split
  · exact (kept_storeEndBlock h).modScriptMarks rfl rfl rfl rfl rfl id
  · exact h

theorem kept_releaseBlock {t : Text} (laid : TextOk r → t.Laid r.rowWidth) (h : Kept r s) : Kept r (releaseBlock t s) :=
  kept_enterTail laid (h.modTextCounts rfl rfl rfl)

@[simp] theorem kept_storeNext (h : Kept r s) : Kept r (storeNext s) := by
  unfold storeNext
  split
  · rename_i load
    split
    · rename_i t found
      obtain ⟨within, rfl⟩ := List.getElem?_eq_some_iff.mp found
      refine kept_releaseBlock (fun ok => ?_) (h.modScript (fun ok => ?_) fun _ counted => ?_)
      · exact h.rowWidth ▸ (h.text ok).script.stored _ (List.getElem_mem within)
      · exact ⟨ok.script.loadWord, ok.script.loadText, ok.script.stored⟩
      · exact ⟨counted.chars, counted.charLimit, counted.blockLimit, by simp, by simp only; omega, fun loading => absurd load loading⟩
    · exact kept_pushReport _ h
  · exact kept_pushReport _ h

end

end Sys2Proof.Machine
end

section
/-! What every operation keeps, continued: the Pacing Set (08), the Cue Timer (04), the floor (07), the modes (10), the end of an
act, and the frame boundary (01). -/

namespace Sys2Proof.Machine

section
variable {r s : State}

/-! ### The Pacing Set -/

@[simp] theorem kept_enforceLimits (h : Kept r s) : Kept r (enforceLimits s) := by simp [enforceLimits, h]

@[simp] theorem kept_reflectAtOnce (h : Kept r s) : Kept r (reflectAtOnce s) := by
  unfold reflectAtOnce
  split <;> simp [h]

@[simp] theorem kept_reflectAtBlock (h : Kept r s) : Kept r (reflectAtBlock s) := by
  unfold reflectAtBlock
  split <;> simp [h]

@[simp] theorem kept_reflectAtItem (h : Kept r s) : Kept r (reflectAtItem s) := by
  unfold reflectAtItem
  split <;> simp [h]

@[simp] theorem kept_writeParam (p : Param) (x : Nat) (h : Kept r s) : Kept r (writeParam p x s) := by
  unfold writeParam
  dsimp only
  split
  · exact kept_reflectAtOnce (kept_flagIf _ _ ((kept_modPacing _).mpr h))
  · exact kept_flagIf _ _ ((kept_modPacing _).mpr h)

@[simp] theorem kept_closeCommand (h : Kept r s) : Kept r (closeCommand s) := by
  unfold closeCommand
  split <;> simp [h]

@[simp] theorem kept_endCommand (h : Kept r s) : Kept r (endCommand s) := by
  simp only [endCommand]
  (repeat' split) <;> simp [h]

/-! ### The Cue Timer -/

@[simp] theorem kept_takeHead (h : Kept r s) : Kept r (takeHead s) := h.sublistBlocks rfl rfl (List.drop_sublist 1 _)

/-- One claim more, where the gate is open (R49). -/
theorem claimsWithin_concat {l : List Claim} (room : l.length < 4 ∧ notOnAir l < 2) (c : Claim) : claimsWithin (l ++ [c]) := by
  have more : notOnAir (l ++ [c]) ≤ notOnAir l + 1 := by
    simp only [notOnAir, List.filter_append, List.length_append]
    exact Nat.add_le_add_left (List.length_filter_le ..) _
  simp only [claimsWithin, List.length_append, List.length_singleton]
  omega

/-- A block planned where the Claim List has room for its claim (R49, R63). -/
theorem kept_planBlock {b : Block} (room : s.claims.length < 4 ∧ notOnAir s.claims < 2)
    (laid : TextOk r → b.text.Laid r.rowWidth) (h : Kept r s) : Kept r (planBlock b s) := by
  unfold planBlock
  dsimp only
  split
  · exact (kept_modTimer _).mpr h
  · split
    · exact kept_pushReport _ (kept_flag _ (kept_takeHead h))
    · refine kept_requestPacket rfl (((kept_modTimer _).mpr (kept_takeHead h)).setClaims (fun ok ok' c mem => ?_) fun _ => ?_)
      · rcases List.mem_append.mp mem with mem | mem
        · exact ok'.claims c mem
        · rw [List.mem_singleton.mp mem]
          exact ⟨((kept_modTimer _).mpr (kept_takeHead h)).rowWidth ▸ laid ok, by simp [plannedClaim]⟩
      · exact claimsWithin_concat room _

theorem attemptDue_room (due : attemptDue s = true) : s.claims.length < 4 ∧ notOnAir s.claims < 2 := by
  simp only [attemptDue, gateOpen, Bool.and_eq_true, decide_eq_true_eq] at due
  tauto

theorem kept_attempt (due : attemptDue s = true) (h : Kept r s) : Kept r (attempt s) := by
  unfold attempt
  split
  · rename_i b rest queue
    refine kept_planBlock (by simpa using attemptDue_room due) (fun ok => ?_) (kept_reflectAtBlock h)
    exact h.rowWidth ▸ (h.text ok).builder.queue b (by simp [queue])
  · exact h

@[simp] theorem kept_attempts (k : Nat) (h : Kept r s) : Kept r (attempts k s) := by
  induction k generalizing s with
  | zero => exact h
  | succ k ih =>
    unfold attempts
    split
    · exact ih (kept_attempt ‹_› h)
    · exact h

/-! ### The floor -/

@[simp] theorem kept_peerPlainTake (b : Nat) (h : Kept r s) : Kept r (peerPlainTake b s) := by
  unfold peerPlainTake
  dsimp only
  (repeat' split) <;> simp [h]

@[simp] theorem kept_ownTakeView (h : Kept r s) : Kept r (ownTakeView s) := by
  unfold ownTakeView
  (repeat' split) <;> simp [h]

@[simp] theorem kept_ownPlainTake (h : Kept r s) : Kept r (ownPlainTake s) := by
  unfold ownPlainTake
  dsimp only
  (repeat' split) <;> simp [h]

@[simp] theorem kept_withdrawClaimed (l : List Claim) (h : Kept r s) : Kept r (withdrawClaimed l s) := by
  induction l generalizing s with
  | nil => exact h
  | cons c l ih =>
    refine ih ?_
    split <;> simp [h]

@[simp] theorem kept_forcedOffClaims (h : Kept r s) : Kept r (forcedOffClaims s) := by simp [forcedOffClaims, h]

@[simp] theorem kept_forcedTakeView (b : Nat) (h : Kept r s) : Kept r (forcedTakeView b s) := by
  have off : Kept r (forcedOffClaims (removeUnstarted PacketKind.isYield
      (setFloor .idle ((setHolder (some b) (setSuccessor none s)).modFloor fun u => { u with yieldOwed := false })))) :=
    kept_forcedOffClaims (kept_removeUnstarted _ (by simp [h]))
  unfold forcedTakeView
  dsimp only
  (repeat' split) <;> simp [h, off]

/-- A change of the Peer Table's entries. -/
@[simp] theorem kept_setPeer (p : Nat) (f : Peer → Peer) (h : Kept r s) : Kept r (setPeer p f s) :=
  h.modLine (fun _ ok => ok.line) fun _ ok =>
    ⟨ok.line.queue, ok.line.started, ok.line.waiting, ok.line.states, by simp [ok.line.peers], ok.line.lastSender⟩

@[simp] theorem kept_yieldView (echo : Bool) (q : Option Nat) (h : Kept r s) : Kept r (yieldView echo q s) := by
  unfold yieldView
  dsimp only
  (repeat' split) <;> simp [h]

@[simp] theorem kept_silenceView (p : Nat) (h : Kept r s) : Kept r (silenceView p s) := by
  unfold silenceView
  dsimp only
  (repeat' split) <;> simp [h]

@[simp] theorem kept_peerSilentAct (p : Nat) (h : Kept r s) : Kept r (peerSilentAct p s) := by
  unfold peerSilentAct
  split <;> simp [h]

@[simp] theorem kept_silenceAll (l : List Nat) (h : Kept r s) : Kept r (silenceAll l s) := by
  induction l generalizing s with
  | nil => exact h
  | cons p l ih => exact ih (kept_peerSilentAct p h)

@[simp] theorem kept_holderFromState (p : Nat) (h : Kept r s) : Kept r (holderFromState p s) := by
  unfold holderFromState
  dsimp only
  (repeat' split) <;> simp [h]

@[simp] theorem kept_bid (h : Kept r s) : Kept r (bid s) :=
  kept_requestPacket rfl ((kept_setFloor _).mpr ((kept_modFloor _).mpr h))

@[simp] theorem kept_autoTake (h : Kept r s) : Kept r (autoTake s) := by
  unfold autoTake
  split <;> simp [h]

@[simp] theorem kept_bidExpiryAct (h : Kept r s) : Kept r (bidExpiryAct s) := by
  unfold bidExpiryAct
  split
  · exact kept_requestPacket rfl ((kept_modFloor _).mpr h)
  · exact h

@[simp] theorem kept_deadlineAct (h : Kept r s) : Kept r (deadlineAct s) := by
  unfold deadlineAct
  split <;> simp [h]

@[simp] theorem kept_oweYield (h : Kept r s) : Kept r (oweYield s) := by
  unfold oweYield
  split <;> simp [h]

@[simp] theorem kept_parkNow : Kept r (parkNow s) ↔ Kept r s := by simp [parkNow]

@[simp] theorem kept_parkAct (h : Kept r s) : Kept r (parkAct s) := by
  unfold parkAct
  split <;> simp [h]

/-! ### Item boundaries -/

@[simp] theorem kept_takeBoundary (b : Frame) (number : Byte) (h : Kept r s) : Kept r (takeBoundary b number s) :=
  (kept_itemCut b).mpr ((kept_modTimer _).mpr (kept_reflectAtItem ((kept_modItem _).mpr (kept_closeOpen .item h))))

@[simp] theorem kept_dropOwnItem (h : Kept r s) : Kept r (dropOwnItem s) := by
  unfold dropOwnItem
  split <;> simp [h]

@[simp] theorem kept_takeItem (echo : Bool) (b : Frame) (number : Byte) (h : Kept r s) :
    Kept r (takeItem echo b number s) := by
  unfold takeItem
  dsimp only
  (repeat' split) <;> simp [h]

/-! ### Modes -/

@[simp] theorem kept_enterMute (h : Kept r s) : Kept r (enterMute s) := by
  have emptied : Kept r (((s.modStation fun u => { u with mode := .mute }).modLine fun l =>
      { l with queue := [], waiting := [] }).modItem fun i => { i with own := .none }) :=
    (kept_modItem _).mpr (((kept_modStation _).mpr h).sublistLine (List.nil_sublist _) (List.nil_sublist _) rfl rfl)
  unfold enterMute
  dsimp only
  (repeat' split) <;> simp [emptied]

/-- The line emptied of what has not started: what is left keeps its content and its kind. -/
theorem LineUnit.Within.emptied {l : LineUnit} (within : l.Within) : l.emptied.Within where
  queue := by simpa [LineUnit.emptied] using (List.length_filter_le ..).trans within.queue
  started := by
    have marked : ∀ k : List QPacket, (k.map fun q => { q with mark := .inFlight }).filter QPacket.started =
        (k.filter QPacket.started).map fun q => { q with mark := .inFlight } := fun k => by
      rw [List.filter_map]
      rfl
    simpa [LineUnit.emptied, marked] using within.started
  waiting := by simp [LineUnit.emptied]
  states := by
    have kinds : ∀ k : List QPacket, (k.map fun q => { q with mark := .inFlight }).filter (fun q => q.kind.isState) =
        (k.filter fun q => q.kind.isState).map fun q => { q with mark := .inFlight } := fun k => by
      rw [List.filter_map]
      rfl
    have fewer : (l.queue.filter QPacket.started).Sublist (l.queue ++ l.waiting) :=
      List.filter_sublist.trans (List.sublist_append_left ..)
    simpa [LineUnit.emptied, kinds] using ((fewer.filter _).length_le).trans within.states
  peers := within.peers
  lastSender := within.lastSender

theorem LineUnit.Laid.emptied {W : Nat} {l : LineUnit} (laid : l.Laid W) : l.emptied.Laid W := by
  intro q mem
  simp only [LineUnit.emptied, List.append_nil] at mem
  obtain ⟨p, known, rfl⟩ := List.mem_map.mp mem
  exact laid p (List.mem_append_left _ (List.mem_of_mem_filter known))

@[simp] theorem kept_modLine_emptied (h : Kept r s) : Kept r (s.modLine LineUnit.emptied) :=
  h.modLine (fun _ ok => ok.line.emptied) fun _ ok => ok.line.emptied

@[simp] theorem kept_resetLine (h : Kept r s) : Kept r (resetLine s) := by
  refine kept_modLine_emptied (h.mapClaims (fun c _ air => ?_) fun _ c _ laid => ?_)
  · split <;> exact air
  · split <;> exact laid

@[simp] theorem kept_queueResetCuts (l : List (Byte × Frame)) (h : Kept r s) : Kept r (queueResetCuts l s) := by
  induction l generalizing s with
  | nil => exact h
  | cons c l ih => exact ih (kept_queueCut _ _ _ (h.updateClaim _ (fun _ => rfl) fun _ _ _ _ laid => laid))

@[simp] theorem kept_resetClaims (h : Kept r s) : Kept r (resetClaims s) := by
  refine kept_queueResetCuts _ (h.setClaims (fun _ ok c mem => ?_) fun ok => ?_)
  · obtain ⟨d, known, rfl⟩ := List.mem_map.mp mem
    exact (ok.claims d (List.mem_of_mem_filter known)).noRevision
  · have fewer := claimsWithin_sublist (List.filter_sublist (p := Claim.echoed)) ok.claims
    exact ⟨by simpa [resetKept] using fewer.1, (notOnAir_map_le (g := fun c => { c with revision := none }) fun _ _ air => air).trans fewer.2⟩

@[simp] theorem kept_resetFloor : Kept r (resetFloor s) ↔ Kept r s := by
  unfold resetFloor
  dsimp only
  split <;> simp

@[simp] theorem kept_resetItem : Kept r (resetItem s) ↔ Kept r s := by
  unfold resetItem
  split <;> simp

theorem kept_modScript_reset (h : Kept r s) : Kept r (s.modScript ScriptStore.reset) :=
  h.modScript (fun ok => (ScriptStore.reset_kept ok.script).1) fun ok => (ScriptStore.reset_kept ok.script).2

/-- The station as the Report Unit's entry into RESETTING leaves it. -/
def resetReported (s : State) : State :=
  (s.modStation fun u => { u with mode := .resetting, resetCount := 0, parkRemembered := false }).modReport
    ReportUnit.entered

/-- Entry into RESETTING keeps all but the sticky flags, which its Report Unit clears (R163). -/
theorem kept_enterResetting (h : Kept r (resetReported s)) : Kept r (enterResetting s) := by
  have claims : Kept r (resetClaims (resetLine (resetReported s))) := kept_resetClaims (kept_resetLine h)
  have script := kept_modScript_reset (kept_modText_emptied claims)
  exact kept_resetItem.mpr ((kept_modPacing _).mpr (kept_resetFloor.mpr ((kept_modTimer _).mpr script)))

@[simp] theorem kept_endResetting (h : Kept r s) : Kept r (endResetting s) := by
  have line : Kept r (((s.setClaims []).setMap []).modLine LineUnit.emptied) :=
    kept_modLine_emptied ((kept_setMap _).mpr (h.sublistClaims (List.nil_sublist _)))
  simp [endResetting, line]

@[simp] theorem kept_drainAct (h : Kept r s) : Kept r (drainAct s) := by
  unfold drainAct
  split <;> simp [h]

@[simp] theorem kept_resetCountAct (h : Kept r s) : Kept r (resetCountAct s) := by
  unfold resetCountAct
  split <;> simp [h]

@[simp] theorem kept_joinAct (h : Kept r s) : Kept r (joinAct s) := by
  unfold joinAct
  split <;> simp [h]

/-! ### The end of an act -/

@[simp] theorem kept_settle (h : Kept r s) : Kept r (settle s) :=
  kept_drainAct (kept_autoTake (kept_queueYield (kept_oweYield (kept_attempts _ (kept_enterWaiting (kept_parkAct h))))))

@[simp] theorem kept_floorReport (h : Kept r s) : Kept r (floorReport s) := by
  unfold floorReport
  split <;> simp [h]

@[simp] theorem kept_finish (h : Kept r s) : Kept r (finish s) := kept_floorReport (kept_settle h)

/-! ### The frame boundary -/

@[simp] theorem kept_timecodeLostAct (h : Kept r s) : Kept r (timecodeLostAct s) := by
  unfold timecodeLostAct
  split <;> simp [h]

@[simp] theorem kept_peerTimeAct (h : Kept r s) : Kept r (peerTimeAct s) := by
  unfold peerTimeAct
  split <;> simp [h]

@[simp] theorem kept_countFrame (h : Kept r s) : Kept r (countFrame s) := by simp [countFrame, h]

@[simp] theorem kept_lineBoundary (t : Moment) (h : Kept r s) : Kept r (lineBoundary t s) :=
  (kept_modRef _).mpr (h.sublistLine (.refl _) (.refl _) rfl rfl)

theorem tickPeers_length (own i : Nat) (l : List Peer) : (tickPeers own i l).length = l.length := by
  induction l generalizing i with
  | nil => rfl
  | cons p l ih => simp [tickPeers, ih]

@[simp] theorem kept_tickLine (h : Kept r s) : Kept r (tickLine s) :=
  h.modLine (fun _ ok => ok.line) fun _ ok =>
    ⟨ok.line.queue, ok.line.started, ok.line.waiting, ok.line.states, by simp [tickPeers_length, ok.line.peers],
      ok.line.lastSender⟩

@[simp] theorem kept_tickStation : Kept r (tickStation s) ↔ Kept r s := kept_modStation _

@[simp] theorem kept_tickFloor : Kept r (tickFloor s) ↔ Kept r s := kept_modFloor _

theorem replaceState_kind (q : QPacket) : (replaceState q).kind = q.kind := by
  unfold replaceState
  split
  · simp [QPacket.fresh, *]
  · rfl

/-- A STATE replaced by a fresh one is one packet as before, and has not started. -/
theorem kept_replaceStates (h : Kept r s) : Kept r (s.modLine fun l =>
    { l with queue := l.queue.map replaceState, waiting := l.waiting.map replaceState }) := by
  refine h.modLine (fun _ ok q mem => ?_) fun _ ok => ?_
  · rw [← List.map_append] at mem
    obtain ⟨p, known, rfl⟩ := List.mem_map.mp mem
    unfold replaceState
    split
    · exact QPacket.fresh_sentLaid _ _
    · exact ok.line p known
  · have fewer (l : List QPacket) : ((l.map replaceState).filter QPacket.started).length ≤ (l.filter QPacket.started).length := by
      rw [List.filter_map, List.length_map]
      refine List.Sublist.length_le (List.monotone_filter_right _ fun q started => ?_)
      simp only [Function.comp_apply, replaceState] at started
      split at started
      · simp [QPacket.fresh, QPacket.started] at started
      · exact started
    refine ⟨by simpa using ok.line.queue, (fewer _).trans ok.line.started, fun q mem => ?_, ?_, ok.line.peers,
      ok.line.lastSender⟩
    · obtain ⟨p, known, rfl⟩ := List.mem_map.mp mem
      unfold replaceState
      split
      · rfl
      · exact ok.line.waiting p known
    · rw [← List.map_append, List.filter_map, List.length_map]
      simpa [Function.comp_def, replaceState_kind] using ok.line.states

@[simp] theorem kept_queueState (h : Kept r s) : Kept r (queueState s) := by
  unfold queueState
  split
  · exact h
  · split
    · exact kept_replaceStates h
    · rename_i none
      refine h.requestPacket fun _ q mem => ?_
      simp only [hasPacket, Bool.or_eq_true, List.any_eq_true, not_or, not_exists, not_and] at none
      rcases List.mem_append.mp mem with mem | mem
      · simpa using none.1 q mem
      · simpa using none.2 q mem

@[simp] theorem kept_stateDueAct (h : Kept r s) : Kept r (stateDueAct s) := by
  have phase : Kept r (s.modLine fun l => { l with phase := 0 }) := h.sublistLine (.refl _) (.refl _) rfl rfl
  unfold stateDueAct
  dsimp only
  (repeat' split) <;> simp [h, phase]

@[simp] theorem kept_beginFrame (t : Moment) (h : Kept r s) : Kept r (beginFrame t s) :=
  kept_tickFloor.mpr (kept_tickStation.mpr (kept_tickLine (kept_peerTimeAct (kept_timecodeLostAct
    (kept_lineBoundary t (kept_countFrame h))))))

@[simp] theorem kept_builderBoundary (h : Kept r s) : Kept r (builderBoundary s) :=
  kept_idleCloseAct (kept_tickIdle (kept_ageQueue h))

@[simp] theorem kept_boundary (t : Moment) (h : Kept r s) : Kept r (boundary t s) := by
  have silenced := kept_silenceAll stationNumbers (kept_staleWaiting (kept_showAndExpire (isStep s) (kept_beginFrame t h)))
  have acted := kept_stateDueAct (kept_bidExpiryAct (kept_builderBoundary (kept_deadlineAct silenced)))
  exact kept_finish (kept_joinAct (kept_resetCountAct ((kept_modTimer _).mpr acted)))

@[simp] theorem kept_phaseLoad (f : Frame) (h : Kept r s) : Kept r (phaseLoad f s) := by
  unfold phaseLoad
  dsimp only
  split <;> simp [h]

end

end Sys2Proof.Machine
end

section
/-! What every operation keeps, concluded: the Line Interface (09) and every command; and the three statements that read it off: the
sticky flags (R168), the texts and the Script Store (R21, R41), the capacities (R30, R70, R154, R165). -/

namespace Sys2Proof.Machine

/-! ### The first of equal packets -/

/-- A change of the first packet equal to `q`: there is one and it alone is changed, or there is none. -/
theorem changeFirst_cases (q : QPacket) (f : QPacket → QPacket) (l : List QPacket) :
    (q ∉ l ∧ changeFirst q f l = l) ∨ ∃ a b, l = a ++ q :: b ∧ q ∉ a ∧ changeFirst q f l = a ++ f q :: b := by
  induction l with
  | nil => exact .inl ⟨by simp, rfl⟩
  | cons p l ih =>
    by_cases here : p = q
    · exact .inr ⟨[], l, by simp [here], by simp, by simp [changeFirst, here]⟩
    · rcases ih with ⟨none, same⟩ | ⟨a, b, eq, first, same⟩
      · exact .inl ⟨by simp [none, Ne.symm here], by simp [changeFirst, here, same]⟩
      · exact .inr ⟨p :: a, b, by simp [eq], by simp [first, Ne.symm here], by simp [changeFirst, here, same]⟩

theorem length_changeFirst (q : QPacket) (f : QPacket → QPacket) (l : List QPacket) :
    (changeFirst q f l).length = l.length := by
  rcases changeFirst_cases q f l with ⟨-, same⟩ | ⟨a, b, eq, -, same⟩
  · rw [same]
  · rw [same, eq]
    simp

theorem mem_changeFirst {q p : QPacket} {f : QPacket → QPacket} {l : List QPacket} (mem : p ∈ changeFirst q f l) :
    p = f q ∨ p ∈ l := by
  rcases changeFirst_cases q f l with ⟨-, same⟩ | ⟨a, b, eq, -, same⟩
  · exact .inr (same ▸ mem)
  · rw [same] at mem
    simp only [eq, List.mem_append, List.mem_cons] at mem ⊢
    tauto

/-- A packet of the queue changed, its kind kept: with none in transmission it may have started; otherwise it may not start. -/
theorem LineUnit.Within.changeFirst {l : LineUnit} {q : QPacket} {f : QPacket → QPacket} (within : l.Within)
    (kind : (f q).kind = q.kind)
    (starts : (f q).started = true → ∀ p ∈ l.queue, p.started = false) :
    LineUnit.Within { l with queue := Machine.changeFirst q f l.queue } := by
  refine ⟨?_, ?_, within.waiting, ?_, within.peers, within.lastSender⟩
  · simpa [length_changeFirst] using within.queue
  · have one := within.started
    rcases changeFirst_cases q f l.queue with ⟨-, same⟩ | ⟨a, b, eq, -, same⟩
    · rwa [same]
    · simp only [same]
      cases started : (f q).started
      · simp only [eq, List.filter_append, List.filter_cons, started, List.length_append] at one ⊢
        split at one <;> simp at one ⊢ <;> omega
      · have idle := starts started
        have none (k : List QPacket) (sub : ∀ p ∈ k, p ∈ l.queue) : k.filter QPacket.started = [] :=
          List.filter_eq_nil_iff.mpr fun p mem => by simp [idle p (sub p mem)]
        have before := none a fun p mem => by simp [eq, mem]
        have after := none b fun p mem => by simp [eq, mem]
        simp [started, before, after]
  · have states := within.states
    rcases changeFirst_cases q f l.queue with ⟨-, same⟩ | ⟨a, b, eq, -, same⟩
    · rwa [same]
    · rw [eq] at states
      simp only [same, List.filter_append, List.filter_cons, kind] at states ⊢
      split at states
      · simpa [*] using states
      · simpa [*] using states

section
variable {r s : State}

/-! ### Hearing and delivery -/

@[simp] theorem kept_mismatchAct (h : Kept r s) : Kept r (mismatchAct s) :=
  kept_flag _ (h.sublistLine (.refl _) (.refl _) rfl rfl)

@[simp] theorem kept_endReception (h : Kept r s) : Kept r (endReception s) := h.sublistLine (.refl _) (.refl _) rfl rfl

@[simp] theorem kept_discardPacket (h : Kept r s) : Kept r (discardPacket s) := kept_flag _ (kept_endReception h)

theorem kept_markHeard {sender : Nat} (station : sender ≤ 16) (h : Kept r s) : Kept r (markHeard sender s) :=
  kept_setPeer _ _ (h.modLine (fun _ ok => ok.line) fun _ ok =>
    ⟨ok.line.queue, ok.line.started, ok.line.waiting, ok.line.states, ok.line.peers, station⟩)

theorem packetValid_sender {sender : Nat} {k : Packet} (valid : packetValid sender k = true) :
    1 ≤ sender ∧ sender ≤ 16 := by
  simp only [packetValid, isStation, Bool.and_eq_true, decide_eq_true_eq] at valid
  exact valid.1

theorem kept_hear {sender : Nat} {k : Packet} {f : State → State} (deliver : ∀ u, Kept r u → Kept r (f u)) (h : Kept r s) :
    Kept r (hear sender k f s) := by
  unfold hear
  dsimp only
  split
  · rename_i valid
    have heard := kept_markHeard (packetValid_sender valid).2 (kept_endReception h)
    (repeat' split) <;> simp [h, heard, deliver]
  · exact kept_discardPacket h

@[simp] theorem kept_takeCue (sender : Nat) (b : CueBody) (h : Kept r s) : Kept r (takeCue sender b s) :=
  kept_overtakenTest (kept_expireCues (kept_mapCue sender b h))

@[simp] theorem kept_takeRevise (sender : Nat) (b : CueBody) (h : Kept r s) : Kept r (takeRevise sender b s) :=
  kept_overtakenTest (kept_expireCues (kept_mapRevise sender b h))

@[simp] theorem kept_takeCut (sender : Nat) (seq : Byte) (off : Frame) (h : Kept r s) : Kept r (takeCut sender seq off s) :=
  kept_mapCut sender seq off h

@[simp] theorem kept_takeTime (sender : Nat) (b : StateBody) (passed : Nat) (h : Kept r s) :
    Kept r (takeTime sender b passed s) := by
  unfold takeTime
  dsimp only
  (repeat' split) <;> simp [h]

@[simp] theorem kept_announce (sender : Nat) (b : StateBody) (h : Kept r s) : Kept r (announce sender b s) :=
  kept_setPeer _ _ h

@[simp] theorem kept_joinItem (number : Byte) (h : Kept r s) : Kept r (joinItem number s) := by
  unfold joinItem
  split <;> simp [h]

@[simp] theorem kept_takeState (sender : Nat) (b : StateBody) (passed : Nat) (h : Kept r s) :
    Kept r (takeState sender b passed s) :=
  kept_overtakenTest (kept_expireCues (kept_mapState sender _
    (kept_joinItem _ (kept_holderFromState sender (kept_takeTime sender b passed (kept_announce sender b h))))))

/-! ### The station's own packets -/

@[simp] theorem kept_giveBack (k : PacketKind) (why : StartTest) (h : Kept r s) : Kept r (giveBack k why s) := by
  unfold giveBack
  (repeat' split) <;> simp [h]

theorem fill_laid {k : PacketKind} {sent : Sent} (filled : fill k s = some sent) (ok : TextOk s) (q : QPacket) :
    QPacket.SentLaid s.rowWidth { q with sent := some sent } := by
  cases k with
  | revise seq =>
    simp only [fill, Option.map_eq_some_iff] at filled
    obtain ⟨c, found, rfl⟩ := filled
    exact (ok.claims c (List.mem_of_find?_eq_some found)).revised_laid
  | cue seq =>
    simp only [fill, Option.map_eq_some_iff] at filled
    obtain ⟨c, found, rfl⟩ := filled
    trivial
  | cut => cases filled; trivial
  | take => cases filled; trivial
  | yield => cases filled; trivial
  | item => cases filled; trivial
  | state => cases filled; trivial

@[simp] theorem kept_ownerStarts (k : PacketKind) (h : Kept r s) : Kept r (ownerStarts k s) := by
  unfold ownerStarts
  split
  · refine h.mapClaims (fun c _ air => ?_) fun _ c _ laid => ?_
    · split
      · simp_all
      · exact air
    · split <;> exact laid
  · exact (kept_modItem _).mpr h
  · exact h

theorem kept_startPacket {q : QPacket} {sent : Sent} (filled : fill q.kind s = some sent)
    (idle : CapacityOk r → ∀ p ∈ s.line.queue, p.sent = none) (h : Kept r s) : Kept r (startPacket q sent s) := by
  refine kept_ownerStarts _ (h.modLine (fun _ ok p mem => ?_) fun ok ok' => ?_)
  · rcases List.mem_append.mp mem with mem | mem
    · rcases mem_changeFirst mem with rfl | mem
      · exact fill_laid filled ok q
      · exact ok.line p (List.mem_append_left _ mem)
    · exact ok.line p (List.mem_append_right _ mem)
  · have started := ok'.line.changeFirst (q := q) (f := fun p => { p with sent := some sent }) rfl
      fun _ p mem => by simp [QPacket.started, idle ok p mem]
    exact ⟨started.queue, started.started, started.waiting, started.states, started.peers, started.lastSender⟩

/-- Where packets are removed, those that stay were there before. -/
theorem removeUnstarted_packets {p : PacketKind → Bool} {q : QPacket}
    (mem : q ∈ (removeUnstarted p s).line.queue ++ (removeUnstarted p s).line.waiting) :
    q ∈ s.line.queue ++ s.line.waiting := by
  rw [removeUnstarted, enterWaiting_line, LineUnit.entered_packets] at mem
  exact ((List.filter_sublist.append List.filter_sublist).subset mem)

theorem removePlanned_packets {p : Claim → Bool} {q : QPacket}
    (mem : q ∈ (removePlanned p s).line.queue ++ (removePlanned p s).line.waiting) : q ∈ s.line.queue ++ s.line.waiting :=
  removeUnstarted_packets (s := s.setClaims (notPlannedFrom p s.claims)) mem

theorem dropRevision_packets {seq : Byte} {q : QPacket}
    (mem : q ∈ (dropRevision seq s).line.queue ++ (dropRevision seq s).line.waiting) : q ∈ s.line.queue ++ s.line.waiting :=
  removeUnstarted_packets (s := updateClaim seq (fun c => { c with revision := none }) s) mem

theorem giveBack_packets {k : PacketKind} {why : StartTest} {q : QPacket}
    (mem : q ∈ (giveBack k why s).line.queue ++ (giveBack k why s).line.waiting) :
    q ∈ s.line.queue ++ s.line.waiting := by
  unfold giveBack at mem
  split at mem
  · split at mem
    · simp only [handBack, enterHeads_frame] at mem
      exact removePlanned_packets mem
    · simp only [dropPlanned, pushReports_frame] at mem
      exact removePlanned_packets mem
    · exact removeUnstarted_packets mem
  · split at mem
    · exact removeUnstarted_packets mem
    · simp only [pushReport_frame] at mem
      exact dropRevision_packets mem
  · exact mem

theorem kept_startHead (k : Nat) (t : Moment) (idle : CapacityOk r → ∀ p ∈ s.line.queue ++ s.line.waiting, p.sent = none)
    (h : Kept r s) : Kept r (startHead k t s) := by
  induction k generalizing s with
  | zero => exact h
  | succ k ih =>
    unfold startHead
    split
    · exact h
    · split
      · split
        · exact kept_startPacket ‹_› (fun ok p mem => idle ok p (List.mem_append_left _ mem)) h
        · exact ih (fun ok p mem => idle ok p (giveBack_packets mem)) (kept_giveBack _ _ h)
      · exact h

@[simp] theorem kept_leaveQueue (h : Kept r s) : Kept r (leaveQueue s) :=
  kept_enterWaiting (h.sublistLine List.eraseP_sublist (.refl _) rfl rfl)

/-! ### Echoes -/

@[simp] theorem kept_airAtEcho (seq : Byte) (h : Kept r s) : Kept r (airAtEcho seq s) := by
  unfold airAtEcho
  split
  · split
    · refine kept_pushReport _ (h.mapClaims (fun c _ air => ?_) fun _ c _ laid => ?_)
      · split
        · rfl
        · exact air
      · split <;> exact laid
    · exact h
  · exact h

@[simp] theorem kept_cueEcho (b : CueBody) (h : Kept r s) : Kept r (cueEcho b s) := by
  unfold cueEcho
  split
  · refine kept_expireCues (kept_airAtEcho _ (kept_mapCue _ _ (kept_pushReport _ (h.mapClaims (fun c _ air => ?_)
      fun _ c _ laid => ?_))))
    · split
      · simp_all
      · exact air
    · split <;> exact laid
  · exact kept_expireCues (kept_mapCue _ _ h)

theorem Claim.Laid.revised {W : Nat} {c : Claim} {t : Text} (laid : c.Laid W) (text : t.Laid W) : (c.revised t).Laid W := by
  refine ⟨text, fun x held => laid.2 x ?_⟩
  unfold Claim.revised at held
  dsimp only at held
  split at held
  · cases held
  · exact held

theorem kept_reviseEcho {b : CueBody} {t : Text} (text : TextOk r → t.Laid r.rowWidth) (h : Kept r s) :
    Kept r (reviseEcho b t s) := by
  unfold reviseEcho
  split
  · have revised : Kept r (pushReport (.revised b.seq) (updateClaim b.seq (Claim.revised t) s)) :=
      kept_pushReport _ (h.updateClaim b.seq (fun _ => rfl) fun ok _ _ _ laid => laid.revised (h.rowWidth ▸ text ok))
    refine kept_expireCues (kept_mapRevise _ _ ?_)
    split
    · exact kept_requestPacket rfl revised
    · exact revised
  · exact kept_expireCues (kept_mapRevise _ _ h)

@[simp] theorem kept_cutEcho (seq : Byte) (off : Frame) (h : Kept r s) : Kept r (cutEcho seq off s) := by
  unfold cutEcho
  dsimp only
  split <;> simp [h]

@[simp] theorem kept_endUnlisted (l : List Cue) (h : Kept r s) : Kept r (endUnlisted l s) := by
  induction l generalizing s with
  | nil => exact h
  | cons c l ih =>
    refine ih ?_
    split <;> simp [h]

@[simp] theorem kept_stateEcho (b : StateBody) (h : Kept r s) : Kept r (stateEcho b s) :=
  kept_expireCues (kept_endUnlisted _ (kept_mapState _ _ (kept_announce _ b h)))

theorem kept_deliverEcho {sent : Sent}
    (text : TextOk r → ∀ b, sent.packet = .revise b → sent.text.Laid r.rowWidth) (h : Kept r s) :
    Kept r (deliverEcho sent s) := by
  unfold deliverEcho
  split
  · simp [h]
  · exact kept_reviseEcho (fun ok => text ok _ ‹_›) h
  · simp [h]
  · split <;> simp [h]
  · simp [h]
  · simp [h]
  · simp [h]

theorem inTransmission_mem {q : QPacket} (found : inTransmission s = some q) : q ∈ s.line.queue :=
  List.mem_of_find?_eq_some found

/-- The packet read back leaves the queue, and an own ITEM the item unit. -/
def packetLeft (q : QPacket) (s : State) : State :=
  if q.kind = .item then (leaveQueue (endReception s)).modItem fun u => { u with own := .none }
  else leaveQueue (endReception s)

theorem packetLeft_own (q : QPacket) (s : State) : (packetLeft q s).own = s.own :=
  State.own_congr (by unfold packetLeft; split <;> simp)

theorem echoAct_eq (q : QPacket) (sent : Sent) (s : State) :
    echoAct q sent s = if packetValid s.own sent.packet then
      if packetFits (markHeard s.own (packetLeft q s)) sent.packet then
        deliverEcho sent (markHeard s.own (packetLeft q s))
      else mismatchAct (markHeard s.own (packetLeft q s))
    else (packetLeft q s).flag .lineFault := by
  rw [← packetLeft_own q s]
  rfl

@[simp] theorem kept_packetLeft (q : QPacket) (h : Kept r s) : Kept r (packetLeft q s) := by
  unfold packetLeft
  split <;> simp [h]

theorem kept_echoAct {q : QPacket} {sent : Sent} (queued : q ∈ s.line.queue) (holds : q.sent = some sent) (h : Kept r s) :
    Kept r (echoAct q sent s) := by
  have text (ok : TextOk r) (b : CueBody) (revise : sent.packet = .revise b) : sent.text.Laid r.rowWidth := by
    have laid := (h.text ok).line q (List.mem_append_left _ queued)
    obtain ⟨packet, text⟩ := sent
    cases revise
    simp only [QPacket.SentLaid, holds] at laid
    exact h.rowWidth ▸ laid
  have heard := kept_markHeard s.own_range.2 (kept_packetLeft q h)
  rw [echoAct_eq]
  split
  · split
    · exact kept_deliverEcho text heard
    · exact kept_mismatchAct heard
  · exact kept_flag _ (kept_packetLeft q h)

/-! ### The stop -/

@[simp] theorem kept_ownerStops (k : PacketKind) (h : Kept r s) : Kept r (ownerStops k s) := by
  unfold ownerStops
  split
  · refine h.mapClaims (fun c _ air => ?_) fun _ c _ laid => ?_
    · split
      · simp_all
      · exact air
    · split <;> exact laid
  · exact (kept_modItem _).mpr h
  · exact h

@[simp] theorem kept_removedAtStop (k : PacketKind) (h : Kept r s) : Kept r (removedAtStop k s) := by
  unfold removedAtStop
  split
  · exact h.updateClaim _ (fun _ => rfl) fun _ _ _ _ laid => laid
  · exact (kept_modItem _).mpr h
  · exact h

@[simp] theorem kept_stopAct (q : QPacket) (h : Kept r s) : Kept r (stopAct q s) := by
  unfold stopAct
  split
  · exact kept_giveUp _ ((kept_ownerStops _ h).sublistLine List.eraseP_sublist (.refl _) rfl rfl)
  · split
    · exact kept_removedAtStop _ (kept_leaveQueue h)
    · refine (kept_ownerStops _ h).modLine (fun _ ok p mem => ?_) fun _ ok =>
        ok.line.changeFirst (f := QPacket.stopped) rfl fun started => by simp [QPacket.started, QPacket.stopped] at started
      rcases List.mem_append.mp mem with mem | mem
      · rcases mem_changeFirst mem with rfl | mem
        · trivial
        · exact ok.line p (List.mem_append_left _ mem)
      · exact ok.line p (List.mem_append_right _ mem)

/-! ### The text port -/

@[simp] theorem kept_discardByte (framingError : Bool) (b : Byte) (h : Kept r s) : Kept r (discardByte framingError b s) := by
  unfold discardByte
  split <;> simp [h]

@[simp] theorem kept_takeCharacter (c : Byte) (h : Kept r s) : Kept r (takeCharacter c s) := by
  unfold takeCharacter
  split
  · exact (kept_modPacing _).mpr h
  · split <;> simp [h]

@[simp] theorem kept_endBlockAct (h : Kept r s) : Kept r (endBlockAct s) := by
  unfold endBlockAct
  split <;> simp [h]

@[simp] theorem kept_speakerAct (h : Kept r s) : Kept r (speakerAct s) := by
  unfold speakerAct
  split
  · exact kept_storeSpeaker h
  · exact (kept_restartIdle (kept_closeOpen _ h)).modTextCounts rfl rfl rfl

@[simp] theorem kept_retractAct (h : Kept r s) : Kept r (retractAct s) := by
  unfold retractAct
  split
  · rename_i load
    exact h.modScript (fun ok => ScriptStore.retracted_laid ok.script)
      fun ok => ScriptStore.retracted_counted ok.script (by simp [load])
  · exact h
  · exact kept_liveRetract h

@[simp] theorem kept_scriptEndAct (h : Kept r s) : Kept r (scriptEndAct s) := by
  unfold scriptEndAct
  split
  · exact (kept_storeEndBlock h).modScriptMarks rfl rfl rfl rfl rfl fun loading => absurd rfl loading
  · exact h

theorem kept_modScript_begun (h : Kept r s) : Kept r (s.modScript ScriptStore.begun) :=
  h.modScript (fun _ => (ScriptStore.begun_kept _ _).1) fun _ _ => (ScriptStore.begun_kept 0 _).2

@[simp] theorem kept_takeAct (h : Kept r s) : Kept r (takeAct s) := by
  unfold takeAct
  (repeat' split) <;> simp [h]

@[simp] theorem kept_yieldAct (h : Kept r s) : Kept r (yieldAct s) := by
  unfold yieldAct
  split <;> simp [h]

@[simp] theorem kept_parkCode (h : Kept r s) : Kept r (parkCode s) := by
  unfold parkCode parkActive
  (repeat' split) <;> simp [h]

@[simp] theorem kept_unparkCode (h : Kept r s) : Kept r (unparkCode s) := by
  unfold unparkCode
  split <;> simp [h]

@[simp] theorem kept_releaseAct (h : Kept r s) : Kept r (releaseAct s) := by
  unfold releaseAct
  split <;> simp [h]

@[simp] theorem kept_contactAct (h : Kept r s) : Kept r (contactAct s) := by
  have asked : Kept r (requestPacket .item s) := kept_requestPacket rfl h
  unfold contactAct
  (repeat' split) <;> simp [h, asked]

theorem kept_plainCode {f : State → State} (act : ∀ u, Kept r u → Kept r (f u)) (h : Kept r s) : Kept r (plainCode f s) := by
  unfold plainCode
  split
  · exact h
  · exact act _ (kept_closeCommand h)

theorem kept_actCode {f : State → State} (act : ∀ u, Kept r u → Kept r (f u)) (h : Kept r s) : Kept r (actCode f s) := by
  unfold actCode
  split
  · exact h
  · exact kept_finish (act _ (kept_closeCommand h))

end

/-! ### What an outcome answers -/

/-- Every state the outcome answers has the property. -/
def Answers (P : State → Prop) (o : Host.Outcome State Fault Refusal) : Prop := ∀ t, o = .next t → P t

theorem Answers.next {P : State → Prop} {u : State} (holds : P u) : Answers P (.next u) := by
  rintro t ⟨⟩
  exact holds

theorem Answers.ite {P : State → Prop} {p : Prop} [Decidable p] {o₁ o₂ : Host.Outcome State Fault Refusal}
    (h₁ : p → Answers P o₁) (h₂ : ¬ p → Answers P o₂) : Answers P (if p then o₁ else o₂) := by
  split
  · exact h₁ ‹_›
  · exact h₂ ‹_›

/-! ### Commands -/

theorem execReferencePulse_kept (t : Moment) (s : State) : Answers (Kept s) (execReferencePulse t s) :=
  .ite (fun _ => .next (kept_boundary _ ((kept_modRef _).mpr (.refl s)))) fun _ => .next ((kept_modRef _).mpr (.refl s))

theorem execTimecodeValue_kept (h m sec f : Nat) (s : State) : Answers (Kept s) (execTimecodeValue h m sec f s) :=
  .ite (fun _ => .next ((kept_modRef _).mpr (.refl s))) fun _ => .next (.refl s)

theorem execCharacter_kept (c : Byte) (s : State) : Answers (Kept s) (execCharacter c s) :=
  .ite (fun _ => .next (.refl s)) fun _ => .ite (fun _ => .next (kept_finish (by simp))) fun _ => .next (by simp)

theorem execDiscardedByte_kept (framingError : Bool) (b : Byte) (s : State) :
    Answers (Kept s) (execDiscardedByte framingError b s) :=
  .ite (fun _ => .next (.refl s)) fun _ => .next (by simp)

theorem execPaceTerminator_kept (s : State) : Answers (Kept s) (execPaceTerminator s) :=
  .ite (fun _ => .next (.refl s)) fun _ => .next (by simp)

theorem execLineIdle_kept (t : Moment) (s : State) : Answers (Kept s) (execLineIdle t s) :=
  .ite (fun _ => .next ((Kept.refl s).sublistLine (.refl _) (.refl _) rfl rfl)) fun _ => .next (.refl s)

theorem execLineBusy_kept (s : State) : Answers (Kept s) (execLineBusy s) :=
  .ite (fun _ => .next ((Kept.refl s).sublistLine (.refl _) (.refl _) rfl rfl)) fun _ => .next (.refl s)

theorem transmitting_eq_false {s : State} : s.transmitting = false ↔ ∀ q ∈ s.line.queue, q.sent = none := by
  simp [State.transmitting, QPacket.started]

theorem execTransmissionStart_kept (t : Moment) (s : State) : Answers (Kept s) (execTransmissionStart t s) := by
  refine .ite (fun may => .next (kept_finish (kept_startHead _ t (fun ok p mem => ?_) (.refl s)))) fun _ => .next (.refl s)
  have silent : s.transmitting = false := by
    simp only [mayStart, Bool.and_eq_true, Bool.not_eq_true'] at may
    exact may.2
  rcases List.mem_append.mp mem with mem | mem
  · exact transmitting_eq_false.mp silent p mem
  · exact ok.line.waiting p mem

theorem execPacketEcho_kept (s : State) : Answers (Kept s) (execPacketEcho s) := by
  unfold execPacketEcho
  split
  · split
    · exact .next (kept_finish (kept_echoAct (inTransmission_mem ‹_›) ‹_› (.refl s)))
    · exact .next (.refl s)
  · exact .next (.refl s)

theorem execReadbackMismatch_kept (s : State) : Answers (Kept s) (execReadbackMismatch s) := by
  unfold execReadbackMismatch
  split
  · exact .next (kept_finish (by simp))
  · exact .next (.refl s)

theorem execReportLineSent_kept (s : State) : Answers (Kept s) (execReportLineSent s) := by
  refine .next ((Kept.refl s).modReport (fun k has => ?_) fun ok => ?_)
  · split <;> exact has
  · split
    · have := ok.reports
      simp_all
      omega
    · exact ok.reports

theorem execMismatchCountExpiry_kept (s : State) : Answers (Kept s) (execMismatchCountExpiry s) :=
  .next ((Kept.refl s).sublistLine (.refl _) (.refl _) rfl rfl)

/-- Every command but POWER_ON, STATUS and RESET keeps all of it. -/
theorem exec_kept (i : Instr) (s : State) (running : ∀ pins m, i ≠ .powerOn pins m) (status : i ≠ .status)
    (reset : i ≠ .reset) : Answers (Kept s) (exec i s) := by
  cases i with
  | powerOn pins m => exact absurd rfl (running pins m)
  | status => exact absurd rfl status
  | reset => exact absurd rfl reset
  | referencePulse t => exact execReferencePulse_kept t s
  | flywheelExpiry => exact .next (kept_boundary _ (kept_flag _ ((kept_modRef _).mpr (.refl s))))
  | guardWindowOpen => exact .next ((kept_modRef _).mpr (.refl s))
  | timecodeValue h m sec f => exact execTimecodeValue_kept h m sec f s
  | timecodeLost => exact .next (by simp)
  | peerTimeSilenceExpiry => exact .next (by simp)
  | character b => exact execCharacter_kept b s
  | discardedByte framingError b => exact execDiscardedByte_kept framingError b s
  | endBlock => exact .next (kept_actCode (fun _ => kept_endBlockAct) (.refl s))
  | speaker => exact .next (kept_actCode (fun _ => kept_speakerAct) (.refl s))
  | retract => exact .next (kept_actCode (fun _ => kept_retractAct) (.refl s))
  | scriptBegin => exact .next (kept_plainCode (fun _ => kept_modScript_begun) (.refl s))
  | scriptEnd => exact .next (kept_plainCode (fun _ => kept_scriptEndAct) (.refl s))
  | loopOn => exact .next (kept_plainCode (fun _ h => h.modScriptMarks rfl rfl rfl rfl rfl id) (.refl s))
  | loopOff => exact .next (kept_plainCode (fun _ h => h.modScriptMarks rfl rfl rfl rfl rfl id) (.refl s))
  | next => exact .next (kept_actCode (fun _ => kept_storeNext) (.refl s))
  | take => exact .next (kept_actCode (fun _ => kept_takeAct) (.refl s))
  | yield => exact .next (kept_actCode (fun _ => kept_yieldAct) (.refl s))
  | park => exact .next (kept_actCode (fun _ => kept_parkCode) (.refl s))
  | unpark => exact .next (kept_actCode (fun _ => kept_unparkCode) (.refl s))
  | hold => exact .next (kept_plainCode (fun _ => (kept_modPacing _).mpr) (.refl s))
  | release => exact .next (kept_plainCode (fun _ => kept_releaseAct) (.refl s))
  | paceIntroducer => exact .next (kept_plainCode (fun _ => (kept_modPacing _).mpr) (.refl s))
  | paceTerminator => exact execPaceTerminator_kept s
  | idleClose => exact .next (kept_finish (by simp))
  | yieldDeadline => exact .next (kept_finish (by simp))
  | bidWaitExpiry => exact .next (kept_finish (by simp))
  | peerSilent peer => exact .next (kept_finish (by simp))
  | stateDue => exact .next (by simp)
  | mismatchCountExpiry => exact execMismatchCountExpiry_kept s
  | joinWaitExpiry => exact .next (kept_finish (by simp))
  | resetCountExpiry => exact .next (kept_finish (by simp))
  | resetDrained => exact .next (kept_floorReport (by simp))
  | deferredPark => exact .next (by simp)
  | itemContactClose => exact .next (by simp)
  | lineIdle t => exact execLineIdle_kept t s
  | transmissionStart t => exact execTransmissionStart_kept t s
  | packetEcho => exact execPacketEcho_kept s
  | readbackMismatch => exact execReadbackMismatch_kept s
  | waitingRequestEntry => exact .next (by simp)
  | cutShortPacket => exact .next (by simp)
  | discardedPacket => exact .next (by simp)
  | cuePacket sender body => exact .next (kept_finish (kept_hear (fun _ => kept_takeCue _ _) (.refl s)))
  | revisePacket sender body => exact .next (kept_finish (kept_hear (fun _ => kept_takeRevise _ _) (.refl s)))
  | cutPacket sender seq off => exact .next (kept_finish (kept_hear (fun _ => kept_takeCut _ _ _) (.refl s)))
  | plainTake sender => exact .next (kept_finish (kept_hear (fun _ => kept_peerPlainTake _) (.refl s)))
  | forcedTake sender => exact .next (kept_finish (kept_hear (fun _ => kept_forcedTakeView _) (.refl s)))
  | yieldPacket sender successor => exact .next (kept_finish (kept_hear (fun _ => kept_yieldView _ _) (.refl s)))
  | itemPacket sender boundary number => exact .next (kept_finish (kept_hear (fun _ => kept_takeItem _ _ _) (.refl s)))
  | statePacket sender body => exact .next (kept_finish (kept_hear (fun _ => kept_takeState _ _ _) (.refl s)))
  | reportLineSent => exact execReportLineSent_kept s
  | lineBusy => exact execLineBusy_kept s

/-- Settles O52: no command but the three named clears a flag, for none of the operations they are made of does. -/
theorem stickyFlagsStay : Obligations.StickyFlagsStay :=
  fun f i s _ has run status reset running => (exec_kept i s running status reset _ run).flags f has

/-! ### POWER_ON, STATUS and RESET -/

/-- The texts and the Script Store in order, and the queues and lists within what they hold. -/
structure StoresOk (r s : State) : Prop where
  text : TextOk r → ScriptOk r → TextOk s ∧ ScriptOk s
  capacity : CapacityOk r → CapacityOk s

theorem Kept.storesOk {r s : State} (h : Kept r s) : StoresOk r s :=
  ⟨fun ok ok' => ⟨h.text ok, h.script ok ok'⟩, h.capacity⟩

theorem reset_textOk : TextOk State.reset := by simp [TextOk, State.reset, Text.empty, Text.LaidOrNone]

theorem reset_scriptOk : ScriptOk State.reset :=
  ⟨by simp [State.reset], Text.empty_laidOrNone _, by decide, by decide, by decide, by decide, by decide, by decide⟩

theorem reset_capacityOk : CapacityOk State.reset := by
  refine ⟨by decide, by decide, by decide, by decide, by simp [State.reset], by decide, by decide, by decide, by decide,
    by decide⟩

theorem powerOnState_storesOk (pins : StrapPins) (m : Moment) (s : State) : StoresOk s (powerOnState pins m s) := by
  refine ⟨fun _ _ => ⟨?_, ?_⟩, fun _ => ?_⟩
  · simp [TextOk, powerOnState, State.reset, Text.empty, Text.LaidOrNone]
  · exact ⟨by simp [powerOnState, State.reset], Text.empty_laidOrNone _, reset_scriptOk.2.2⟩
  · obtain ⟨blocks, reports, queue, started, waiting, states, claims, notOnAir, -, lastSender⟩ := reset_capacityOk
    exact ⟨blocks, reports, queue, started, waiting, states, claims, notOnAir, rfl, lastSender⟩

theorem closeCommand_storesOk (s : State) : StoresOk s (closeCommand s) := (kept_closeCommand (.refl s)).storesOk

theorem statusAct_storesOk {r s : State} (h : StoresOk r s) : StoresOk r (statusAct s) := by
  refine ⟨h.text, fun ok => ?_⟩
  obtain ⟨blocks, reports, rest⟩ := h.capacity ok
  have room := makeReportRoom_queue_length s.report reports
  refine ⟨blocks, ?_, rest⟩
  simp only [statusAct, State.modReport_report, List.length_append, List.length_singleton]
  omega

theorem execStatus_storesOk (s : State) : Answers (StoresOk s) (execStatus s) := by
  refine .next ?_
  unfold plainCode
  split
  · exact (Kept.refl s).storesOk
  · exact statusAct_storesOk (closeCommand_storesOk s)

theorem resetReported_storesOk (s : State) : StoresOk s (resetReported s) := by
  refine ⟨fun ok ok' => ⟨ok, ok'⟩, fun ⟨blocks, reports, rest⟩ => ⟨blocks, ?_, rest⟩⟩
  have taken : (s.report.queue.take 1).length ≤ s.report.queue.length := List.length_take_le' ..
  exact taken.trans reports

theorem execReset_storesOk (s : State) : Answers (StoresOk s) (execReset s) := by
  refine .ite (fun _ => .next (Kept.refl s).storesOk) fun _ => .ite (fun _ => .next (closeCommand_storesOk s)) fun _ =>
    .next ?_
  have entered := kept_finish (kept_enterResetting (.refl (resetReported s)))
  have reported := resetReported_storesOk s
  exact ⟨fun ok ok' => entered.storesOk.text (reported.text ok ok').1 (reported.text ok ok').2,
    fun ok => entered.capacity (reported.capacity ok)⟩

theorem exec_storesOk (i : Instr) (s : State) : Answers (StoresOk s) (exec i s) := by
  by_cases power : ∃ pins m, i = .powerOn pins m
  · obtain ⟨pins, m, rfl⟩ := power
    exact .next (powerOnState_storesOk pins m s)
  · by_cases status : i = .status
    · exact status ▸ execStatus_storesOk s
    · by_cases reset : i = .reset
      · exact reset ▸ execReset_storesOk s
      · exact fun t run => (exec_kept i s (fun pins m eq => power ⟨pins, m, eq⟩) status reset t run).storesOk

/-! ### A step -/

/-- A step idles, or runs the command at the front on the state without it. -/
theorem step_cases {s t : State} (run : step s = .next t) :
    t = s ∨ ∃ c rest, s.pending = c :: rest ∧ exec c { s with pending := rest } = .next t := by
  unfold step at run
  split at run
  · exact .inr ⟨_, _, ‹_›, run⟩
  · exact .inl (by cases run; rfl)

/-- Settles O54: the texts and the store's counts stand through every command, by `exec_storesOk`. -/
theorem textStaysLaid : Obligations.TextStaysLaid := by
  intro s t text script run
  rcases step_cases run with rfl | ⟨c, rest, -, run⟩
  · exact ⟨text, script⟩
  · exact (exec_storesOk c _ t run).text text script

/-- Settles O57: the capacities stand through every command, by `exec_storesOk`. -/
theorem capacitiesHold : Obligations.CapacitiesHold := by
  intro s t within run
  rcases step_cases run with rfl | ⟨c, rest, -, run⟩
  · exact within
  · exact (exec_storesOk c _ t run).capacity within

end Sys2Proof.Machine
end

section
/-! The Pacing Set (08): the cross-limits, the activation of pending values, writes and the PACE command; and what every command
keeps of it. -/

namespace Sys2Proof.Machine

/-! ### The cross-limits (R131) -/

theorem Params.crossLimited_eq (v : Params Nat) : v.crossLimited =
    { v with dmax := max v.dmax v.dmin, dlin := max v.dlin (max v.dmax v.dmin), lmax := max v.lmax v.t,
             h := min v.h (v.t - 1) } := by
  have larger (a b : Nat) : max a b = if a < b then b else a := by split <;> omega
  have smaller (a b : Nat) : min a b = if b < a then b else a := by split <;> omega
  rw [larger, larger, larger, smaller]
  unfold Params.crossLimited
  dsimp only
  (repeat' split) <;> simp_all

/-- The four cross-limits hold already. -/
def Params.Crossed (v : Params Nat) : Prop := v.dmin ≤ v.dmax ∧ v.dmax ≤ v.dlin ∧ v.t ≤ v.lmax ∧ v.h < v.t

theorem Params.Legal.crossed {v : Params Nat} (legal : v.Legal) : v.Crossed := legal.2

theorem Params.Crossed.limited {v : Params Nat} (crossed : v.Crossed) : v.crossLimited = v := by
  obtain ⟨duration, linger, lag, hysteresis⟩ := crossed
  rw [Params.crossLimited_eq, max_eq_left duration, max_eq_left linger, max_eq_left lag, min_eq_left (by omega)]

/-- Every value in its fixed range. -/
def Params.InRange (v : Params Nat) : Prop := ∀ p : Param, p.range.1 ≤ v.get p ∧ v.get p ≤ p.range.2

theorem Params.InRange.legal {v : Params Nat} (inRange : v.InRange) : v.crossLimited.Legal := by
  rw [Params.crossLimited_eq]
  have dmin := inRange .dmin
  have dmax := inRange .dmax
  have dlin := inRange .dlin
  have t := inRange .t
  have h := inRange .h
  have lmax := inRange .lmax
  simp only [Param.range, Params.get] at dmin dmax dlin t h lmax
  refine ⟨fun p => ?_, ?_⟩
  · have own := inRange p
    cases p <;> simp only [Param.range, Params.get] at own ⊢ <;> omega
  · dsimp only
    omega

/-- Settles O30: the closed form of the four limits, with the ranges. -/
theorem crossLimitsMakeLegal : Obligations.CrossLimitsMakeLegal :=
  fun v inRange => ⟨Params.InRange.legal inRange, fun legal => legal.crossed.limited, v.crossLimited_eq⟩

theorem enforceLimits_eq (s : State) : enforceLimits s =
    if s.pacing.active.crossLimited = s.pacing.active then s
    else (s.modPacing fun u => { u with active := u.active.crossLimited }).flag .paramClamped := by
  by_cases same : s.pacing.active.crossLimited = s.pacing.active
  · rw [if_pos same]
    simp only [enforceLimits, same, ne_eq, not_true_eq_false, decide_false]
    rfl
  · simp [enforceLimits, same, State.flagIf]
    rfl

/-! ### A pacing set in order -/

/-- Every pending value in its fixed range. -/
def Params.PendingInRange (v : Params (Option Nat)) : Prop :=
  ∀ (p : Param) (x : Nat), v.get p = some x → p.range.1 ≤ x ∧ x ≤ p.range.2

theorem Params.PendingInRange.getD {v : Params (Option Nat)} (pending : v.PendingInRange) {u : Params Nat}
    (active : u.InRange) (p : Param) :
    p.range.1 ≤ (v.get p).getD (u.get p) ∧ (v.get p).getD (u.get p) ≤ p.range.2 := by
  cases held : v.get p with
  | none => exact active p
  | some x => exact pending p x held

theorem Params.nothing_pendingInRange : Params.nothing.PendingInRange := by
  intro p x held
  cases p <;> cases held

/-- The active values and the pending ones in their fixed ranges; the first half of what `PacingOk` says. -/
def PacingSet.InRange (u : PacingSet) : Prop := u.active.InRange ∧ u.pending.PendingInRange

theorem PacingOk.inRange {s : State} (ok : PacingOk s) : s.pacing.InRange := ⟨ok.1.1, ok.2⟩

/-- The pending values of one reflection class have become active (R131). -/
def PacingSet.Reflected (c : Reflect) (u v : PacingSet) : Prop :=
  ∀ p : Param, v.active.get p = (if p.reflect = c then (u.pending.get p).getD (u.active.get p) else u.active.get p) ∧
    v.pending.get p = if p.reflect = c then none else u.pending.get p

theorem PacingSet.applyAtOnce_reflected (u : PacingSet) : PacingSet.Reflected .atOnce u u.applyAtOnce := by
  intro p
  cases p <;> exact ⟨rfl, rfl⟩

theorem PacingSet.applyAtBlock_reflected (u : PacingSet) : PacingSet.Reflected .atBlock u u.applyAtBlock := by
  intro p
  cases p <;> exact ⟨rfl, rfl⟩

theorem PacingSet.applyAtItem_reflected (u : PacingSet) : PacingSet.Reflected .atItem u u.applyAtItem := by
  intro p
  cases p <;> exact ⟨rfl, rfl⟩

theorem PacingSet.InRange.reflected {c : Reflect} {u v : PacingSet} (inRange : u.InRange) (same : u.Reflected c v) :
    v.InRange := by
  obtain ⟨active, pending⟩ := inRange
  refine ⟨fun p => ?_, fun p x held => ?_⟩
  · rw [(same p).1]
    split
    · exact pending.getD active p
    · exact active p
  · rw [(same p).2] at held
    split at held
    · cases held
    · exact pending p x held

/-! ### Operations that touch the Pacing Set -/

theorem PacingOk.congr {s t : State} (ok : PacingOk s) (same : t.pacing = s.pacing) : PacingOk t := by
  unfold PacingOk at ok ⊢
  rwa [same]

/-- The limits enforced on values in their ranges leave the set legal. -/
theorem enforceLimits_pacingOk {s : State} (inRange : s.pacing.InRange) : PacingOk (enforceLimits s) := by
  obtain ⟨active, pending⟩ := inRange
  rw [enforceLimits_eq]
  split
  · rename_i same
    exact ⟨same ▸ active.legal, pending⟩
  · exact ⟨active.legal, pending⟩

theorem reflectAtOnce_pacingOk {s : State} (ok : PacingOk s) : PacingOk (reflectAtOnce s) := by
  unfold reflectAtOnce
  split
  · exact enforceLimits_pacingOk (ok.inRange.reflected s.pacing.applyAtOnce_reflected)
  · exact ok

theorem reflectAtBlock_pacingOk {s : State} (ok : PacingOk s) : PacingOk (reflectAtBlock s) := by
  unfold reflectAtBlock
  split
  · exact enforceLimits_pacingOk (ok.inRange.reflected s.pacing.applyAtBlock_reflected)
  · exact ok

theorem reflectAtItem_pacingOk {s : State} (ok : PacingOk s) : PacingOk (reflectAtItem s) := by
  unfold reflectAtItem
  split
  · exact enforceLimits_pacingOk (ok.inRange.reflected s.pacing.applyAtItem_reflected)
  · exact ok

theorem Params.get_set {α : Type} (v : Params α) (p q : Param) (x : α) :
    (v.set p x).get q = if q = p then x else v.get q := by
  cases p <;> cases q <;> rfl

theorem Params.PendingInRange.set {v : Params (Option Nat)} (pending : v.PendingInRange) (p : Param) (x : Nat) :
    (v.set p (some (clampTo p.range x))).PendingInRange := by
  intro q y held
  rw [Params.get_set] at held
  split at held
  · cases held
    subst q
    exact clampTo_range _ x
  · exact pending q y held

theorem writeParam_pacingOk (p : Param) (x : Nat) {s : State} (ok : PacingOk s) : PacingOk (writeParam p x s) := by
  have written : PacingOk (State.flagIf (decide (clampTo p.range x ≠ x)) .paramClamped
      (s.modPacing fun u => { u with pending := u.pending.set p (some (clampTo p.range x)) })) :=
    PacingOk.congr (s := s.modPacing fun u => { u with pending := u.pending.set p (some (clampTo p.range x)) })
      ⟨ok.1, Params.PendingInRange.set ok.2 p x⟩ (by simp)
  unfold writeParam
  dsimp only
  split
  · exact reflectAtOnce_pacingOk written
  · exact written

theorem closeCommand_pacingOk {s : State} (ok : PacingOk s) : PacingOk (closeCommand s) := by
  unfold closeCommand
  split
  · exact ok
  · exact ok

theorem endCommand_pacingOk {s : State} (ok : PacingOk s) : PacingOk (endCommand s) := by
  unfold endCommand
  split
  · dsimp only
    split
    · exact writeParam_pacingOk _ _ ok
    · exact ok
  · exact ok

theorem attempt_pacingOk {s : State} (ok : PacingOk s) : PacingOk (attempt s) := by
  unfold attempt
  split
  · exact (reflectAtBlock_pacingOk ok).congr (by simp)
  · exact ok

theorem attempts_pacingOk (k : Nat) {s : State} (ok : PacingOk s) : PacingOk (attempts k s) := by
  induction k generalizing s with
  | zero => exact ok
  | succ k ih =>
    unfold attempts
    split
    · exact ih (attempt_pacingOk ok)
    · exact ok

theorem finish_pacingOk {s : State} (ok : PacingOk s) : PacingOk (finish s) := by
  have tried := attempts_pacingOk (enterWaiting (parkAct s)).text.queue.length (ok.congr (t := enterWaiting (parkAct s)) (by simp))
  exact tried.congr (by simp [finish, settle])

theorem takeBoundary_pacingOk (b : Frame) (number : Byte) {s : State} (ok : PacingOk s) :
    PacingOk (takeBoundary b number s) := by
  have reflected := reflectAtItem_pacingOk (ok.congr
    (t := (closeOpen .item s).modItem fun i => { i with number := number, lastBoundary := some b }) (by simp))
  exact reflected.congr (by simp [takeBoundary])

theorem takeItem_pacingOk (echo : Bool) (b : Frame) (number : Byte) {s : State} (ok : PacingOk s) :
    PacingOk (takeItem echo b number s) := by
  unfold takeItem
  split
  · exact ok
  · dsimp only
    split
    · exact takeBoundary_pacingOk b number ok
    · exact takeBoundary_pacingOk b number (ok.congr (by simp))

theorem enterResetting_pacingOk {s : State} (ok : PacingOk s) : PacingOk (enterResetting s) := by
  have kept : (enterResetting s).pacing = s.pacing.reset := by simp [enterResetting]
  unfold PacingOk
  rw [kept]
  exact ⟨ok.1, Params.nothing_pendingInRange⟩

/-! ### Hearing and echo, by their outcomes -/

/-- A packet heard: not valid, a twin's (new or in MUTE), one that does not fit, or one delivered. -/
theorem hear_cases {P : State → Prop} {sender : Nat} {k : Packet} {f : State → State} {s : State}
    (bad : P (discardPacket s)) (twin : P (endReception s)) (mutes : s.station.mode ≠ .mute → P (enterMute (endReception s)))
    (unfit : sender ≠ s.own → P (mismatchAct (markHeard sender (endReception s))))
    (fits : packetValid sender k = true → sender ≠ s.own → packetFits s k = true →
      P (f (markHeard sender (endReception s)))) :
    P (hear sender k f s) := by
  unfold hear
  dsimp only
  split
  · split
    · split
      · exact twin
      · exact mutes ‹_›
    · rename_i valid peer
      split
      · refine fits valid peer ?_
        rename_i fit
        cases k <;> exact fit
      · exact unfit peer
  · exact bad

theorem hear_pacingOk {sender : Nat} {k : Packet} {f : State → State} {s : State}
    (deliver : ∀ u, PacingOk u → PacingOk (f u)) (ok : PacingOk s) : PacingOk (hear sender k f s) :=
  hear_cases (ok.congr (by simp)) (ok.congr (by simp)) (fun _ => ok.congr (by simp)) (fun _ => ok.congr (by simp))
    fun _ _ _ => deliver _ (ok.congr (by simp))

theorem deliverEcho_pacingOk (sent : Sent) {s : State} (ok : PacingOk s) : PacingOk (deliverEcho sent s) := by
  unfold deliverEcho
  split
  · exact ok.congr (by simp)
  · exact ok.congr (by simp)
  · exact ok.congr (by simp)
  · split <;> exact ok.congr (by simp)
  · exact ok.congr (by simp)
  · exact takeItem_pacingOk true _ _ ok
  · exact ok.congr (by simp)

theorem packetLeft_pacing (q : QPacket) (s : State) : (packetLeft q s).pacing = s.pacing := by
  unfold packetLeft
  split <;> simp

theorem echoAct_pacingOk (q : QPacket) (sent : Sent) {s : State} (ok : PacingOk s) : PacingOk (echoAct q sent s) := by
  rw [echoAct_eq]
  split
  · have heard : PacingOk (markHeard s.own (packetLeft q s)) := ok.congr (by simp [packetLeft_pacing])
    split
    · exact deliverEcho_pacingOk sent heard
    · exact heard.congr (by simp)
  · exact ok.congr (by simp [packetLeft_pacing])

/-! ### Commands -/

/-- PACKET_ECHO, by what is in transmission. -/
theorem execPacketEcho_cases {P : State → Prop} {s : State}
    (echo : ∀ q sent, inTransmission s = some q → q.sent = some sent → P (finish (echoAct q sent s))) (idle : P s) :
    Answers P (execPacketEcho s) := by
  unfold execPacketEcho
  split
  · split
    · exact .next (echo _ _ ‹_› ‹_›)
    · exact .next idle
  · exact .next idle

/-- READBACK_MISMATCH, by what is in transmission. -/
theorem execReadbackMismatch_cases {P : State → Prop} {s : State}
    (stop : ∀ q, inTransmission s = some q → P (finish (stopAct q s))) (idle : P s) :
    Answers P (execReadbackMismatch s) := by
  unfold execReadbackMismatch
  split
  · exact .next (stop _ ‹_›)
  · exact .next idle

theorem plainCode_pacingOk {f : State → State} {s : State} (act : ∀ u, PacingOk u → PacingOk (f u)) (ok : PacingOk s) :
    PacingOk (plainCode f s) := by
  unfold plainCode
  split
  · exact ok
  · exact act _ (closeCommand_pacingOk ok)

/-- A control code that does not touch the Pacing Set. -/
theorem actCode_pacingOk {f : State → State} {s : State} (act : ∀ u, (f u).pacing = u.pacing) (ok : PacingOk s) :
    PacingOk (actCode f s) := by
  unfold actCode
  split
  · exact ok
  · exact finish_pacingOk ((closeCommand_pacingOk ok).congr (act _))

theorem takeCharacter_pacingOk (c : Byte) {s : State} (ok : PacingOk s) : PacingOk (takeCharacter c s) := by
  unfold takeCharacter
  split
  · exact ok
  · split <;> exact ok.congr (by simp)

theorem discardByte_pacingOk (framingError : Bool) (b : Byte) {s : State} (ok : PacingOk s) :
    PacingOk (discardByte framingError b s) := by
  unfold discardByte
  split
  · exact closeCommand_pacingOk ok
  · exact ok

theorem releaseAct_pacingOk {s : State} (ok : PacingOk s) : PacingOk (releaseAct s) := by
  unfold releaseAct
  split
  · exact reflectAtOnce_pacingOk ok
  · exact ok

theorem boundary_pacingOk (t : Moment) {s : State} (ok : PacingOk s) : PacingOk (boundary t s) :=
  finish_pacingOk (ok.congr (by simp))

theorem powerOnState_pacingOk (pins : StrapPins) (m : Moment) (s : State) : PacingOk (powerOnState pins m s) := by
  have defaults : Params.defaults.Legal := by
    refine ⟨fun p => ?_, by decide⟩
    cases p <;> decide
  exact ⟨defaults, Params.nothing_pendingInRange⟩

theorem exec_pacingOk (i : Instr) {s : State} (ok : PacingOk s) : Answers PacingOk (exec i s) := by
  cases i with
  | powerOn pins m => exact .next (powerOnState_pacingOk pins m s)
  | referencePulse t => exact .ite (fun _ => .next (boundary_pacingOk t ok)) fun _ => .next ok
  | flywheelExpiry => exact .next (boundary_pacingOk _ ok)
  | guardWindowOpen => exact .next ok
  | timecodeValue h m sec f => exact .ite (fun _ => .next ok) fun _ => .next ok
  | timecodeLost => exact .next (ok.congr (by simp))
  | peerTimeSilenceExpiry => exact .next (ok.congr (by simp))
  | character c =>
    exact .ite (fun _ => .next ok) fun _ => .ite (fun _ => .next (finish_pacingOk (takeCharacter_pacingOk c ok)))
      fun _ => .next (discardByte_pacingOk _ c ok)
  | discardedByte framingError b => exact .ite (fun _ => .next ok) fun _ => .next (discardByte_pacingOk _ b ok)
  | endBlock => exact .next (actCode_pacingOk (fun u => by unfold endBlockAct; split <;> simp) ok)
  | speaker => exact .next (actCode_pacingOk (fun u => by unfold speakerAct; split <;> simp) ok)
  | retract => exact .next (actCode_pacingOk (fun u => by unfold retractAct; split <;> simp) ok)
  | scriptBegin => exact .next (plainCode_pacingOk (fun _ ok => ok) ok)
  | scriptEnd =>
    exact .next (plainCode_pacingOk (fun u ok => ok.congr (by unfold scriptEndAct; split <;> simp)) ok)
  | loopOn => exact .next (plainCode_pacingOk (fun _ ok => ok) ok)
  | loopOff => exact .next (plainCode_pacingOk (fun _ ok => ok) ok)
  | next => exact .next (actCode_pacingOk (fun u => by simp) ok)
  | take => exact .next (actCode_pacingOk (fun u => by unfold takeAct; (repeat' split) <;> simp) ok)
  | yield => exact .next (actCode_pacingOk (fun u => by unfold yieldAct; split <;> simp) ok)
  | park => exact .next (actCode_pacingOk (fun u => by unfold parkCode parkActive; (repeat' split) <;> simp) ok)
  | unpark => exact .next (actCode_pacingOk (fun u => by unfold unparkCode; split <;> simp) ok)
  | hold => exact .next (plainCode_pacingOk (fun _ ok => ok) ok)
  | release => exact .next (plainCode_pacingOk (fun _ => releaseAct_pacingOk) ok)
  | status => exact .next (plainCode_pacingOk (fun _ ok => ok) ok)
  | reset =>
    exact .ite (fun _ => .next ok) fun _ => .ite (fun _ => .next (closeCommand_pacingOk ok))
      fun _ => .next (finish_pacingOk (enterResetting_pacingOk ok))
  | paceIntroducer => exact .next (plainCode_pacingOk (fun _ ok => ok) ok)
  | paceTerminator => exact .ite (fun _ => .next ok) fun _ => .next (endCommand_pacingOk ok)
  | idleClose => exact .next (finish_pacingOk (ok.congr (by simp)))
  | yieldDeadline => exact .next (finish_pacingOk (ok.congr (by simp)))
  | bidWaitExpiry => exact .next (finish_pacingOk (ok.congr (by simp)))
  | peerSilent peer => exact .next (finish_pacingOk (ok.congr (by simp)))
  | stateDue => exact .next (ok.congr (by simp))
  | mismatchCountExpiry => exact .next ok
  | joinWaitExpiry => exact .next (finish_pacingOk (ok.congr (by simp)))
  | resetCountExpiry => exact .next (finish_pacingOk (ok.congr (by simp)))
  | resetDrained => exact .next (ok.congr (by simp))
  | deferredPark => exact .next (ok.congr (by simp))
  | itemContactClose => exact .next (ok.congr (by unfold contactAct; (repeat' split) <;> simp))
  | lineIdle t => exact .ite (fun _ => .next ok) fun _ => .next ok
  | transmissionStart t => exact .ite (fun _ => .next (finish_pacingOk (ok.congr (by simp)))) fun _ => .next ok
  | packetEcho => exact execPacketEcho_cases (fun q sent _ _ => finish_pacingOk (echoAct_pacingOk q sent ok)) ok
  | readbackMismatch => exact execReadbackMismatch_cases (fun q _ => finish_pacingOk (ok.congr (by simp))) ok
  | waitingRequestEntry => exact .next (ok.congr (by simp))
  | cutShortPacket => exact .next (ok.congr (by simp))
  | discardedPacket => exact .next (ok.congr (by simp))
  | cuePacket sender body => exact .next (finish_pacingOk (hear_pacingOk (fun u ok => ok.congr (by simp)) ok))
  | revisePacket sender body => exact .next (finish_pacingOk (hear_pacingOk (fun u ok => ok.congr (by simp)) ok))
  | cutPacket sender seq off => exact .next (finish_pacingOk (hear_pacingOk (fun u ok => ok.congr (by simp)) ok))
  | plainTake sender => exact .next (finish_pacingOk (hear_pacingOk (fun u ok => ok.congr (by simp)) ok))
  | forcedTake sender => exact .next (finish_pacingOk (hear_pacingOk (fun u ok => ok.congr (by simp)) ok))
  | yieldPacket sender successor => exact .next (finish_pacingOk (hear_pacingOk (fun u ok => ok.congr (by simp)) ok))
  | itemPacket sender boundary number =>
    exact .next (finish_pacingOk (hear_pacingOk (fun _ => takeItem_pacingOk false _ _) ok))
  | statePacket sender body => exact .next (finish_pacingOk (hear_pacingOk (fun u ok => ok.congr (by simp)) ok))
  | reportLineSent => exact .next ok
  | lineBusy => exact .ite (fun _ => .next ok) fun _ => .next ok

/-- Settles O55: values in their ranges become active only through the cross-limits, by `exec_pacingOk`. -/
theorem pacingStaysLegal : Obligations.PacingStaysLegal := by
  intro s t ok run
  rcases step_cases run with rfl | ⟨c, rest, -, run⟩
  · exact ok
  · exact exec_pacingOk c (s := { s with pending := rest }) ok t run

end Sys2Proof.Machine
end

section
/-! What a write, a PACE command, HOLD, RELEASE and an attempt of the Cue Timer do (8.2, 8.3, 11.2, 4.1, 4.2). -/

namespace Sys2Proof.Machine

/-! ### Pending values that become active -/

theorem PacingSet.applyAtOnce_of_none {u : PacingSet} (none : u.anyAtOnce = false) : u.applyAtOnce = u := by
  obtain ⟨active, pending, holding, command⟩ := u
  obtain ⟨noPi, noY⟩ : pending.pi = .none ∧ pending.y = .none := by simpa [anyAtOnce] using none
  cases pending
  subst noPi noY
  rfl

theorem PacingSet.applyAtBlock_of_none {u : PacingSet} (none : u.anyAtBlock = false) : u.applyAtBlock = u := by
  obtain ⟨active, pending, holding, command⟩ := u
  obtain ⟨⟨⟨⟨noR, noDmin⟩, noDmax⟩, noDlin⟩, noG⟩ : (((pending.r = .none ∧ pending.dmin = .none) ∧ pending.dmax = .none) ∧
      pending.dlin = .none) ∧ pending.g = .none := by simpa [anyAtBlock] using none
  cases pending
  subst noR noDmin noDmax noDlin noG
  rfl

theorem PacingSet.applyAtItem_of_none {u : PacingSet} (none : u.anyAtItem = false) : u.applyAtItem = u := by
  obtain ⟨active, pending, holding, command⟩ := u
  obtain ⟨⟨⟨⟨noT, noH⟩, noK⟩, noLmax⟩, noPlacement⟩ : (((pending.t = .none ∧ pending.h = .none) ∧ pending.k = .none) ∧
      pending.lmax = .none) ∧ pending.placement = .none := by simpa [anyAtItem] using none
  cases pending
  subst noT noH noK noLmax noPlacement
  rfl

/-- The enforcement by whether it changes a value. -/
theorem enforceLimits_flags (s : State) : enforceLimits s =
    if s.pacing.active.crossLimited = s.pacing.active then
      s.modPacing fun u => { u with active := s.pacing.active.crossLimited }
    else (s.modPacing fun u => { u with active := s.pacing.active.crossLimited }).flag .paramClamped := by
  unfold enforceLimits State.flagIf
  split <;> simp_all

/-- Limits that hold already change nothing. -/
theorem enforceLimits_crossed {s : State} (crossed : s.pacing.active.Crossed) : enforceLimits s = s := by
  rw [enforceLimits_eq, if_pos crossed.limited]

/-- AT_ONCE values are in no cross-limit. -/
theorem reflectAtOnce_eq {s : State} (crossed : s.pacing.active.Crossed) :
    reflectAtOnce s = s.modPacing PacingSet.applyAtOnce := by
  unfold reflectAtOnce
  split
  · exact enforceLimits_crossed crossed
  · rename_i none
    rw [Bool.not_eq_true] at none
    rw [State.modPacing, PacingSet.applyAtOnce_of_none none]

/-- AT_BLOCK values on a set that is not holding. -/
theorem reflectAtBlock_eq {s : State} (crossed : s.pacing.active.Crossed) (free : s.pacing.holding = false) :
    reflectAtBlock s = enforceLimits (s.modPacing PacingSet.applyAtBlock) := by
  unfold reflectAtBlock
  split
  · rfl
  · rename_i none
    have none : s.pacing.anyAtBlock = false := by simpa [free] using none
    rw [State.modPacing, PacingSet.applyAtBlock_of_none none, enforceLimits_crossed crossed]

theorem reflectAtBlock_holding {s : State} (holding : s.pacing.holding = true) : reflectAtBlock s = s := by
  simp [reflectAtBlock, holding]

/-- AT_ITEM values on a set that is not holding. -/
theorem reflectAtItem_eq {s : State} (crossed : s.pacing.active.Crossed) (free : s.pacing.holding = false) :
    reflectAtItem s = enforceLimits (s.modPacing PacingSet.applyAtItem) := by
  unfold reflectAtItem
  split
  · rfl
  · rename_i none
    have none : s.pacing.anyAtItem = false := by simpa [free] using none
    rw [State.modPacing, PacingSet.applyAtItem_of_none none, enforceLimits_crossed crossed]

theorem reflectAtItem_holding {s : State} (holding : s.pacing.holding = true) : reflectAtItem s = s := by
  simp [reflectAtItem, holding]

/-! ### Writes, HOLD and RELEASE (R130, R132) -/

theorem clampTo_eq (p : Param) (x : Nat) : clampTo p.range x = max p.range.1 (min p.range.2 x) := by
  have range : p.range.1 ≤ p.range.2 := by cases p <;> decide
  unfold clampTo
  (repeat' split) <;> omega

theorem Param.reflect_atOnce_iff (p : Param) : p.reflect = .atOnce ↔ p = .pi ∨ p = .y := by
  cases p <;> simp [Param.reflect]

/-- A write pends, clamped, with its flag. -/
def written (p : Param) (x : Nat) (s : State) : State :=
  (s.modPacing fun u => { u with pending := u.pending.set p (some (clampTo p.range x)) }).flagIf
    (decide (clampTo p.range x ≠ x)) .paramClamped

theorem written_eq (p : Param) (x : Nat) (s : State) :
    written p x s =
      if max p.range.1 (min p.range.2 x) = x then
        { s with pacing := { s.pacing with pending := s.pacing.pending.set p (some (max p.range.1 (min p.range.2 x))) } }
      else State.flagged .paramClamped
        { s with pacing := { s.pacing with pending := s.pacing.pending.set p (some (max p.range.1 (min p.range.2 x))) } } := by
  rw [written, clampTo_eq, State.flagIf]
  split <;> simp_all <;> rfl

theorem written_pacing (p : Param) (x : Nat) (s : State) : (written p x s).pacing.active = s.pacing.active ∧
    (written p x s).pacing.holding = s.pacing.holding := by simp [written]

theorem writeParam_pending {p : Param} {x : Nat} {s : State} (waits : (p ≠ .pi ∧ p ≠ .y) ∨ s.pacing.holding = true) :
    writeParam p x s = written p x s := by
  refine if_neg fun ⟨once, free⟩ => ?_
  change (written p x s).pacing.holding = false at free
  rw [(written_pacing p x s).2] at free
  rw [Param.reflect_atOnce_iff] at once
  simp_all

theorem writeParam_atOnce {p : Param} {x : Nat} {s : State} (once : p = .pi ∨ p = .y) (free : s.pacing.holding = false)
    (crossed : s.pacing.active.Crossed) : writeParam p x s = (written p x s).modPacing PacingSet.applyAtOnce := by
  obtain ⟨active, holding⟩ := written_pacing p x s
  have now : p.reflect = .atOnce ∧ (written p x s).pacing.holding = false :=
    ⟨p.reflect_atOnce_iff.mpr once, holding.trans free⟩
  rw [← reflectAtOnce_eq (active ▸ crossed)]
  exact if_pos now

theorem closeCommand_holding (s : State) : (closeCommand s).pacing.holding = s.pacing.holding := by
  unfold closeCommand
  split <;> rfl

theorem closeCommand_active (s : State) : (closeCommand s).pacing.active = s.pacing.active := by
  unfold closeCommand
  split <;> rfl

/-- Settles O29: the write by the class of its parameter, HOLD and RELEASE with no cross-limit touched. -/
theorem writesAndHolds : Obligations.WritesAndHolds := by
  intro s
  refine ⟨fun p x => ⟨fun waits => ?_, fun once free legal => ?_⟩, fun taken => ⟨?_, fun free => ?_, fun holding legal => ?_⟩⟩
  · rw [writeParam_pending waits, written_eq]
  · rw [writeParam_atOnce once free legal.crossed, written_eq]
    rfl
  · exact congrArg Host.Outcome.next (plainCode_taken _ taken)
  · refine congrArg Host.Outcome.next ((plainCode_taken _ taken).trans (if_neg ?_))
    rw [closeCommand_holding, free]
    exact Bool.false_ne_true
  · refine congrArg Host.Outcome.next ((plainCode_taken _ taken).trans ((if_pos ?_).trans (reflectAtOnce_eq ?_)))
    · rw [closeCommand_holding, holding]
    · exact (closeCommand_active s).symm ▸ legal.crossed

/-! ### The PACE command (R129) -/

theorem digitOf_eq_some {b : Byte} (digit : 0x30 ≤ b.toNat ∧ b.toNat ≤ 0x39) : digitOf b = some (b.toNat - 0x30) :=
  if_pos digit

theorem numberOf_digits {l : List Byte} (digits : ∀ d ∈ l, 0x30 ≤ d.toNat ∧ d.toNat ≤ 0x39) (acc : Nat) :
    numberOf acc l = some (l.foldl (fun x d => x * 10 + (d.toNat - 0x30)) acc) := by
  induction l generalizing acc with
  | nil => rfl
  | cons d l ih =>
    rw [numberOf, digitOf_eq_some (digits d (by simp))]
    exact ih (fun e mem => digits e (by simp [mem])) _

theorem numberOf_eq_none {l : List Byte} (bad : ∃ d ∈ l, d.toNat < 0x30 ∨ 0x39 < d.toNat) (acc : Nat) :
    numberOf acc l = none := by
  induction l generalizing acc with
  | nil => simp at bad
  | cons d l ih =>
    rw [numberOf]
    split
    · rename_i digit
      refine ih ?_ _
      obtain ⟨e, mem, out⟩ := bad
      rcases List.mem_cons.mp mem with rfl | mem
      · have : ¬ (0x30 ≤ e.toNat ∧ e.toNat ≤ 0x39) := by omega
        rw [digitOf, if_neg this] at digit
        cases digit
      · exact ⟨e, mem, out⟩
    · rfl

theorem parsePace_wellFormed {letter : Byte} {digits : List Byte} {p : Param} (known : paramOfLetter letter = some p)
    (some_ : 1 ≤ digits.length) (four : digits.length ≤ 4) (decimal : ∀ d ∈ digits, 0x30 ≤ d.toNat ∧ d.toNat ≤ 0x39) :
    parsePace (letter :: digits) = some (p, digits.foldl (fun x d => x * 10 + (d.toNat - 0x30)) 0) := by
  simp [parsePace, known, some_, four, numberOf_digits decimal]

theorem parsePace_malformed {cs : List Byte}
    (bad : ∀ letter digits, cs = letter :: digits → paramOfLetter letter = none ∨ digits = [] ∨ 4 < digits.length ∨
      ∃ d ∈ digits, d.toNat < 0x30 ∨ 0x39 < d.toNat) : parsePace cs = none := by
  cases cs with
  | nil => rfl
  | cons letter digits =>
    rcases bad letter digits rfl with unknown | rfl | long | nondigit
    · simp [parsePace, unknown]
    · cases known : paramOfLetter letter <;> simp [parsePace, known]
    · have : ¬ (1 ≤ digits.length ∧ digits.length ≤ 4) := by omega
      cases known : paramOfLetter letter <;> simp only [parsePace, known, if_neg this]
    · cases known : paramOfLetter letter <;> simp [parsePace, known, numberOf_eq_none nondigit]

theorem exec_paceTerminator_taken {s : State} (taken : s.station.mode ≠ .resetting) :
    exec .paceTerminator s = .next (endCommand s) :=
  if_neg (by simp [State.portClosed, taken])

/-- Settles O28: the introducer, the characters and the terminator, each on its own branch. -/
theorem paceCommandIsCollected : Obligations.PaceCommandIsCollected := by
  intro s
  refine ⟨?_, fun taken => ?_, fun c cs taken char open_ => ?_, fun taken none => ?_,
    fun letter digits p taken open_ known some_ four decimal => ?_, fun cs taken open_ bad => ?_⟩
  · cases open_ : s.pacing.command <;> simp [closeCommand, open_]
    rfl
  · refine congrArg Host.Outcome.next ((plainCode_taken _ taken).trans ?_)
    cases open_ : s.pacing.command <;> simp [closeCommand, open_] <;> rfl
  · have collected : takeCharacter c s = { s with pacing := { s.pacing with command := some (cs ++ [c]) } } := by
      simp only [takeCharacter, open_]
      rfl
    rw [← collected]
    exact (if_neg (by simp [State.portClosed, taken])).trans (if_pos char)
  · rw [exec_paceTerminator_taken taken, endCommand, none]
    rfl
  · rw [exec_paceTerminator_taken taken, endCommand, open_]
    dsimp only
    rw [parsePace_wellFormed known some_ four decimal]
    rfl
  · rw [exec_paceTerminator_taken taken, endCommand, open_]
    dsimp only
    rw [parsePace_malformed bad]
    rfl

/-! ### An attempt (R50 to R63) -/

theorem clampDuration_range {v : Params Nat} (range : v.dmin ≤ v.dmax) (d : Int) :
    v.dmin ≤ clampDuration v d ∧ clampDuration v d ≤ v.dmax := by
  unfold clampDuration
  (repeat' split) <;> omega

theorem planBlock_holds {b : Block} {s : State}
    (far : 500 < s.dist s.n (earliestShow s (chooseLow s b.text.rows.length) b.text.rows.length)) :
    planBlock b s = { s with timer := { s.timer with hold := true } } :=
  if_pos far

theorem planBlock_drops {b : Block} {s : State}
    (near : s.dist s.n (earliestShow s (chooseLow s b.text.rows.length) b.text.rows.length) ≤ 500)
    (late : (s.pacing.active.lmax : Int) <
      s.dist b.arrival (earliestShow s (chooseLow s b.text.rows.length) b.text.rows.length)) :
    planBlock b s = pushReport (.dropped .stale (some b.seq)) (State.flagged .staleDrop
      { s with text := { s.text with queue := s.text.queue.drop 1 } }) :=
  (if_neg (Int.not_lt.mpr near)).trans (if_pos late)

/-- The claim planned for a block whose show and duration are known (R63). -/
theorem planBlock_plans {b : Block} {s : State} {e : Frame} {lag : Int} {pace : Pace}
    (show_ : e = earliestShow s (chooseLow s b.text.rows.length) b.text.rows.length) (lag_ : lag = s.dist b.arrival e)
    (near : s.dist s.n e ≤ 500) (punctual : lag ≤ s.pacing.active.lmax)
    (pace_ : pace = nextPace s.pacing.active s.timer.pace lag) :
    planBlock b s = requestPacket (.cue b.seq) { s with
      text := { s.text with queue := s.text.queue.drop 1 }, timer := { s.timer with pace := pace },
      claims := s.claims ++ [plannedClaim s b (chooseLow s b.text.rows.length) e (clampDuration s.pacing.active
        (compressed s.pacing.active pace lag (baseDuration b.text.count s.fps s.pacing.active.r)))] } := by
  subst show_ lag_ pace_
  exact (if_neg (Int.not_lt.mpr near)).trans (if_neg (Int.not_lt.mpr punctual))

/-- Settles O26: stage 1 by the hold flag, and the three ends of an attempt. -/
theorem attemptHoldsDropsOrPlans : Obligations.AttemptHoldsDropsOrPlans := by
  refine ⟨fun b rest s queue => ?_, fun s legal => ⟨reflectAtBlock_holding, fun free => ?_⟩, fun b s range =>
    ⟨planBlock_holds, planBlock_drops, fun near punctual => ?_⟩⟩
  · rw [attempt, queue]
  · rw [reflectAtBlock_eq legal.crossed free, enforceLimits_flags]
    rfl
  · obtain ⟨low, high⟩ := clampDuration_range range (compressed s.pacing.active
      (nextPace s.pacing.active s.timer.pace
        (s.dist b.arrival (earliestShow s (chooseLow s b.text.rows.length) b.text.rows.length)))
      (s.dist b.arrival (earliestShow s (chooseLow s b.text.rows.length) b.text.rows.length))
      (baseDuration b.text.count s.fps s.pacing.active.r))
    exact ⟨_, _, _, planBlock_plans rfl rfl near punctual rfl, rfl, low, high, rfl, rfl, rfl, rfl, rfl, rfl, rfl, rfl, rfl,
      rfl, rfl, rfl, rfl, rfl⟩

end Sys2Proof.Machine
end

section
/-! The floor (07): how every operation moves the floor state, the view and the mode, and that they stay in agreement (R108, R109,
R120, R162). -/

namespace Sys2Proof.Machine

/-! ### Agreement by unit -/

/-- The floor unit in agreement with the station's number and mode; what `FloorOk` says. -/
structure Floor.Agrees (own : Nat) (mode : Mode) (f : Floor) : Prop where
  holds : (f.state = .live ∨ f.state = .yielding) ↔ f.holder = some own
  successor : ∀ q, f.successor = some q → f.holder ≠ some q
  idle : mode ≠ .active → f.state = .idle
  owed : f.yieldOwed = true → f.state = .yielding

theorem State.onFloor_iff {s : State} : s.onFloor = true ↔ s.floor.state = .live ∨ s.floor.state = .yielding := by
  simp [State.onFloor]

theorem floorOk_iff {s : State} : FloorOk s ↔ s.floor.Agrees s.own s.station.mode := by
  unfold FloorOk
  rw [State.onFloor_iff]
  exact ⟨fun ⟨holds, successor, idle, owed⟩ => ⟨holds, fun q eq => successor q eq, idle, owed⟩,
    fun ⟨holds, successor, idle, owed⟩ => ⟨holds, fun q eq => successor q eq, idle, owed⟩⟩

theorem FloorOk.agrees {s : State} (ok : FloorOk s) : s.floor.Agrees s.own s.station.mode := floorOk_iff.mp ok

/-- What `FloorOk` reads is the straps, the floor and the mode. -/
theorem FloorOk.congr {s t : State} (ok : FloorOk s) (straps : t.straps = s.straps) (floor : t.floor = s.floor)
    (mode : t.station.mode = s.station.mode) : FloorOk t := by
  rw [floorOk_iff, floor, mode, State.own_congr straps]
  exact ok.agrees

/-- A state whose floor and mode are known. -/
theorem FloorOk.of_agrees {s t : State} {f : Floor} {m : Mode} (straps : t.straps = s.straps) (floor : t.floor = f)
    (mode : t.station.mode = m) (agrees : f.Agrees s.own m) : FloorOk t := by
  rw [floorOk_iff, floor, mode, State.own_congr straps]
  exact agrees

/-! ### A bid that is given up (R118, R153) -/

/-- The floor unit after a bid is lost. -/
def Floor.bidLost (f : Floor) : Floor :=
  { f with state := .idle, bidRunning := false, takeEchoed := false, reportDue := true }

/-- The floor stands, or a bid has been lost: what a given-up packet can do to it. -/
def BidMayEnd (s t : State) : Prop := t.floor = s.floor ∨ (s.floor.state = .bidding ∧ t.floor = s.floor.bidLost)

theorem BidMayEnd.of_eq {s t : State} (same : t.floor = s.floor) : BidMayEnd s t := .inl same

theorem BidMayEnd.refl (s : State) : BidMayEnd s s := .inl rfl

theorem BidMayEnd.trans {s t u : State} (first : BidMayEnd s t) (second : BidMayEnd t u) : BidMayEnd s u := by
  rcases first with same | ⟨bidding, lost⟩
  · rw [BidMayEnd, same] at second
    exact second
  · rcases second with same | ⟨again, -⟩
    · exact .inr ⟨bidding, same.trans lost⟩
    · rw [lost] at again
      cases again

/-- A further change that does not touch the floor. -/
theorem BidMayEnd.keep {s t u : State} (first : BidMayEnd s t) (same : u.floor = t.floor) : BidMayEnd s u :=
  first.trans (.of_eq same)

/-- A change before that does not touch the floor. -/
theorem BidMayEnd.from {s t u : State} (second : BidMayEnd t u) (same : t.floor = s.floor) : BidMayEnd s u :=
  (BidMayEnd.of_eq same).trans second

/-- A station that is not BIDDING has no bid to lose. -/
theorem BidMayEnd.eq {s t : State} (may : BidMayEnd s t) (other : s.floor.state ≠ .bidding) : t.floor = s.floor := by
  rcases may with same | ⟨bidding, -⟩
  · exact same
  · exact absurd bidding other

theorem Floor.Agrees.bidLost {own : Nat} {mode : Mode} {f : Floor} (agrees : f.Agrees own mode) (bidding : f.state = .bidding) :
    f.bidLost.Agrees own mode := by
  obtain ⟨holds, successor, idle, owed⟩ := agrees
  refine ⟨?_, successor, fun _ => rfl, fun owe => ?_⟩
  · simpa [bidding, Floor.bidLost] using holds
  · simpa [bidding] using owed owe

theorem FloorOk.mayEnd {s t : State} (ok : FloorOk s) (straps : t.straps = s.straps) (may : BidMayEnd s t)
    (mode : t.station.mode = s.station.mode) : FloorOk t := by
  rcases may with same | ⟨bidding, lost⟩
  · exact ok.congr straps same mode
  · exact .of_agrees straps lost mode (ok.agrees.bidLost bidding)

theorem loseBid_floor {s : State} (bidding : s.floor.state = .bidding) : (loseBid s).floor = s.floor.bidLost := by
  simp [loseBid, endBid, setFloor, bidding, Floor.bidLost]

theorem ownerGivesUp_mayEnd (k : PacketKind) (s : State) : BidMayEnd s (ownerGivesUp k s) := by
  cases k with
  | cut seq off => exact .of_eq (by simp [ownerGivesUp])
  | cue seq => exact .of_eq (by simp [ownerGivesUp])
  | revise seq => exact .of_eq (by simp [ownerGivesUp])
  | take forced =>
    simp only [ownerGivesUp]
    split
    · exact .inr ⟨‹_›, loseBid_floor ‹_›⟩
    · exact .refl s
  | yield => exact .of_eq (by simp [ownerGivesUp])
  | item => exact .refl s
  | state => exact .refl s

theorem giveUp_mayEnd (k : PacketKind) (s : State) : BidMayEnd s (giveUp k s) :=
  (ownerGivesUp_mayEnd k _).from (by simp)

theorem displaceAt_mayEnd (i : Nat) (s : State) : BidMayEnd s (displaceAt i s) := by
  unfold displaceAt
  split
  · exact (giveUp_mayEnd _ _).from (by simp)
  · exact .refl s

theorem makeCutRoom_mayEnd (s : State) : BidMayEnd s (makeCutRoom s) := by
  unfold makeCutRoom
  split
  · exact .of_eq (by simp)
  · split
    · exact displaceAt_mayEnd _ s
    · split
      · exact displaceAt_mayEnd _ s
      · exact .refl s

theorem queueCut_mayEnd (seq : Byte) (off : Frame) (mark : ResetMark) (s : State) : BidMayEnd s (queueCut seq off mark s) := by
  obtain ⟨u, ⟨rfl, -⟩ | ⟨rfl, -⟩, eq⟩ := queueCut_queue seq off mark s
  · exact .of_eq (by rw [eq]; rfl)
  · exact (makeCutRoom_mayEnd s).keep (by rw [eq]; rfl)

theorem withdraw_mayEnd (seq : Byte) (off : Frame) (mark : ResetMark) (s : State) : BidMayEnd s (withdraw seq off mark s) :=
  (queueCut_mayEnd _ _ _ _).from (by simp)

theorem endClaim_floor (seq : Byte) (s : State) : (endClaim seq s).floor = s.floor := by simp

theorem conflictLoss_mayEnd (seq : Byte) (s : State) : BidMayEnd s (conflictLoss seq s) := by
  unfold conflictLoss
  split
  · dsimp only
    split
    · exact (queueCut_mayEnd _ _ _ _).from (endClaim_floor seq s)
    · exact .of_eq (endClaim_floor seq s)
  · exact .refl s

theorem cueGone_mayEnd (why : MapEnd) (c : Cue) (s : State) : BidMayEnd s (cueGone why c s) := by
  unfold cueGone
  split
  · split
    · exact .of_eq (endClaim_floor _ s)
    · exact conflictLoss_mayEnd _ s
  · exact .refl s

theorem cuesGone_mayEnd (why : MapEnd) (l : List Cue) (s : State) : BidMayEnd s (cuesGone why l s) := by
  induction l generalizing s with
  | nil => exact .refl s
  | cons c l ih => exact (cueGone_mayEnd why c s).trans (ih _)

/-! ### The Row Map's work -/

theorem makeRowRoom_mayEnd (inHand : Cue → Bool) (row : Nat) (s : State) : BidMayEnd s (makeRowRoom inHand row s) := by
  unfold makeRowRoom
  split
  · split
    · exact (cueGone_mayEnd _ _ _).from (by simp)
    · exact .refl s
  · exact .refl s

theorem makeEntries_mayEnd (inHand : Cue → Bool) (c : Cue) (s : State) : BidMayEnd s (makeEntries inHand c s) := by
  have low := makeRowRoom_mayEnd inHand c.low s
  unfold makeEntries
  dsimp only
  split
  · exact (low.trans (makeRowRoom_mayEnd _ _ _)).keep rfl
  · exact low.keep rfl

theorem conflictTest_mayEnd (c : Cue) (s : State) : BidMayEnd s (conflictTest c s) := by
  unfold conflictTest
  dsimp only
  split
  · exact (cueGone_mayEnd _ _ _).from rfl
  · exact (cuesGone_mayEnd _ _ _).from rfl

theorem expireCues_mayEnd (s : State) : BidMayEnd s (expireCues s) := (cuesGone_mayEnd _ _ _).from rfl

theorem boundNeighbours_floor (c : Cue) (s : State) : (boundNeighbours c s).floor = s.floor := by simp

theorem boundAll_floor (l : List Cue) (s : State) : (boundAll l s).floor = s.floor := by simp

theorem pushReports_floor (l : List Report) (s : State) : (pushReports l s).floor = s.floor := by simp

theorem mapCue_mayEnd (sender : Nat) (b : CueBody) (s : State) : BidMayEnd s (mapCue sender b s) :=
  (((makeEntries_mayEnd _ _ (s.setMap _)).trans (conflictTest_mayEnd _ _)).keep (boundNeighbours_floor _ _)).from rfl

theorem mapRevise_mayEnd (sender : Nat) (b : CueBody) (s : State) : BidMayEnd s (mapRevise sender b s) := by
  unfold mapRevise
  split
  · exact .refl s
  · exact mapCue_mayEnd sender b s

theorem makeAllEntries_mayEnd (inHand : Cue → Bool) (l : List Cue) (s : State) : BidMayEnd s (makeAllEntries inHand l s) := by
  induction l generalizing s with
  | nil => exact .refl s
  | cons c l ih =>
    refine BidMayEnd.trans ?_ (ih _)
    exact (makeEntries_mayEnd _ _ _).from rfl

theorem testAll_mayEnd (l : List Cue) (s : State) : BidMayEnd s (testAll l s) := by
  induction l generalizing s with
  | nil => exact .refl s
  | cons c l ih =>
    unfold testAll
    split
    · exact (conflictTest_mayEnd _ s).trans (ih _)
    · exact ih s

theorem mapState_mayEnd (sender : Nat) (l : List StateClaim) (s : State) : BidMayEnd s (mapState sender l s) := by
  unfold mapState
  refine BidMayEnd.keep ?_ (boundAll_floor _ _)
  refine BidMayEnd.trans ?_ (testAll_mayEnd _ _)
  exact (makeAllEntries_mayEnd _ _ _).from rfl

theorem mapCut_mayEnd (sender : Nat) (seq : Byte) (off : Frame) (s : State) : BidMayEnd s (mapCut sender seq off s) := by
  unfold mapCut
  split
  · split
    · exact (cueGone_mayEnd _ _ _).from rfl
    · exact .refl s
  · exact .refl s

theorem showAndExpire_mayEnd (step : Bool) (s : State) : BidMayEnd s (showAndExpire step s) := by
  unfold showAndExpire
  dsimp only
  refine BidMayEnd.trans ?_ (cuesGone_mayEnd _ _ _)
  refine BidMayEnd.keep ?_ (pushReports_floor _ _)
  exact (cuesGone_mayEnd _ _ _).from rfl

theorem phaseLoad_mayEnd (f : Frame) (s : State) : BidMayEnd s (phaseLoad f s) := by
  unfold phaseLoad
  dsimp only
  split
  · exact .of_eq (by simp)
  · exact (showAndExpire_mayEnd true _).from (by simp)

theorem withdrawClaimed_mayEnd (l : List Claim) (s : State) : BidMayEnd s (withdrawClaimed l s) := by
  induction l generalizing s with
  | nil => exact .refl s
  | cons c l ih =>
    unfold withdrawClaimed
    split
    · exact (withdraw_mayEnd _ _ _ s).trans (ih _)
    · exact ih s

theorem forcedOffClaims_mayEnd (s : State) : BidMayEnd s (forcedOffClaims s) :=
  (withdrawClaimed_mayEnd _ _).from (by simp)

theorem queueResetCuts_mayEnd (l : List (Byte × Frame)) (s : State) : BidMayEnd s (queueResetCuts l s) := by
  induction l generalizing s with
  | nil => exact .refl s
  | cons c l ih => exact ((queueCut_mayEnd _ _ _ _).from (by simp)).trans (ih _)

theorem reviseClaim_mayEnd (c : Claim) (s : State) : BidMayEnd s (reviseClaim c s) := by
  unfold reviseClaim
  dsimp only
  split
  · split <;> exact .of_eq (by simp)
  · exact (withdraw_mayEnd _ _ _ _).from (by simp)

theorem liveRetract_mayEnd (s : State) : BidMayEnd s (liveRetract s) := by
  unfold liveRetract
  split
  · exact .of_eq (by simp)
  · split
    · exact .of_eq (by simp)
    · unfold claimRetract
      split
      · exact .of_eq (by simp)
      · split
        · exact .of_eq (by simp)
        · split
          · exact reviseClaim_mayEnd _ s
          · exact .of_eq (by simp)

/-! ### Echo and stop -/

theorem airAtEcho_floor (seq : Byte) (s : State) : (airAtEcho seq s).floor = s.floor := by simp

theorem cueEcho_mayEnd (b : CueBody) (s : State) : BidMayEnd s (cueEcho b s) := by
  unfold cueEcho
  split
  · exact ((((mapCue_mayEnd _ _ _).from (by simp)).keep (airAtEcho_floor _ _))).trans (expireCues_mayEnd _)
  · exact (mapCue_mayEnd _ _ _).trans (expireCues_mayEnd _)

theorem reviseEcho_mayEnd (b : CueBody) (t : Text) (s : State) : BidMayEnd s (reviseEcho b t s) := by
  unfold reviseEcho
  split
  · dsimp only
    split
    · exact ((mapRevise_mayEnd _ _ _).from (by simp)).trans (expireCues_mayEnd _)
    · exact ((mapRevise_mayEnd _ _ _).from (by simp)).trans (expireCues_mayEnd _)
  · exact (mapRevise_mayEnd _ _ _).trans (expireCues_mayEnd _)

theorem cutEcho_mayEnd (seq : Byte) (off : Frame) (s : State) : BidMayEnd s (cutEcho seq off s) := by
  unfold cutEcho
  dsimp only
  split
  · exact (mapCut_mayEnd _ _ _ _).from (by simp)
  · exact mapCut_mayEnd _ _ _ _

theorem endUnlisted_mayEnd (l : List Cue) (s : State) : BidMayEnd s (endUnlisted l s) := by
  induction l generalizing s with
  | nil => exact .refl s
  | cons c l ih =>
    unfold endUnlisted
    split
    · exact (cueGone_mayEnd _ _ s).trans (ih _)
    · exact ih s

theorem stateEcho_mayEnd (b : StateBody) (s : State) : BidMayEnd s (stateEcho b s) :=
  (((mapState_mayEnd _ _ _).trans (endUnlisted_mayEnd _ _)).trans (expireCues_mayEnd _)).from (by simp)

theorem stopAct_mayEnd (q : QPacket) (s : State) : BidMayEnd s (stopAct q s) := by
  unfold stopAct
  split
  · exact (giveUp_mayEnd _ _).from (by simp)
  · split <;> exact .of_eq (by simp)

end Sys2Proof.Machine
end

section
/-! The floor in agreement: the acts that move it (R109 to R124), the modes (R161 to R164), echoes and packets. -/

namespace Sys2Proof.Machine

section
variable {s : State}

theorem FloorOk.holds_iff (ok : FloorOk s) :
    (s.floor.state = .live ∨ s.floor.state = .yielding) ↔ s.floor.holder = some s.own := ok.agrees.holds

theorem FloorOk.bidding_active (ok : FloorOk s) (bidding : s.floor.state = .bidding) : s.station.mode = .active := by
  by_contra other
  rw [ok.agrees.idle other] at bidding
  cases bidding

/-! ### The floor after each operation -/

theorem enterYielding_floor (s : State) : (enterYielding s).floor = { s.floor with
    state := .yielding, yieldCount := 0, yieldOwed := false,
    reportDue := s.floor.reportDue || decide (s.floor.state ≠ .yielding) } := rfl

theorem endBid_floor (s : State) : (endBid s).floor = { s.floor with bidRunning := false, takeEchoed := false } := by
  simp [endBid]

/-- A station that becomes LIVE, or YIELDING at once with a park owed. -/
theorem becomeLive_floor (s : State) : (becomeLive s).floor = { s.floor with
    state := if s.floor.parkOwed = true then .yielding else .live,
    yieldCount := if s.floor.parkOwed = true then 0 else s.floor.yieldCount,
    yieldOwed := if s.floor.parkOwed = true then false else s.floor.yieldOwed,
    bidRunning := false, takeEchoed := false,
    reportDue := s.floor.reportDue || decide (s.floor.state ≠ .live) || s.floor.parkOwed } := by
  unfold becomeLive
  dsimp only
  split <;> simp_all [enterYielding_floor, endBid_floor, setFloor]

theorem leaveFloor_floor (s : State) : (leaveFloor s).floor = { s.floor with
    state := .idle, yieldOwed := false, reportDue := s.floor.reportDue || decide (s.floor.state ≠ .idle) } := by
  simp [leaveFloor, setFloor]
  rfl

/-- R109 by what the station was: the floor it takes, keeps or cannot hold. -/
theorem holdFloor_cases (s : State) :
    ((s.floor.state = .bidding ∨ (s.floor.state = .idle ∧ s.station.mode = .active)) ∧
      holdFloor s = becomeLive (setHolder (some s.own) s)) ∨
    ((s.floor.state = .live ∨ s.floor.state = .yielding) ∧ holdFloor s = setHolder (some s.own) s) ∨
    (s.floor.state = .idle ∧ s.station.mode ≠ .active ∧ holdFloor s = setHolder none s) := by
  unfold holdFloor
  rw [← State.onFloor_iff (s := s)]
  split
  · exact .inl ⟨‹_›, rfl⟩
  · split
    · exact .inr (.inl ⟨‹_›, rfl⟩)
    · rename_i notBid notOn
      rw [State.onFloor_iff] at notOn
      refine .inr (.inr ⟨?_, ?_, rfl⟩)
      · cases state : s.floor.state <;> simp_all
      · cases state : s.floor.state <;> simp_all

/-! ### Acts on the view (R109 to R115) -/

theorem setSuccessor_floorOk {h : Option Nat} (other : ∀ q, h = some q → s.floor.holder ≠ some q) (ok : FloorOk s) :
    FloorOk (setSuccessor h s) := by
  obtain ⟨holds, -, idle, owed⟩ := ok.agrees
  exact floorOk_iff.mpr ⟨holds, other, idle, owed⟩

theorem setSuccessor_none_floorOk (ok : FloorOk s) : FloorOk (setSuccessor none s) :=
  setSuccessor_floorOk (by simp) ok

/-- The station is never its own successor and holder together (R109). -/
theorem holdFloor_floorOk (other : s.floor.successor ≠ some s.own) (ok : FloorOk s) : FloorOk (holdFloor s) := by
  have successor (q : Nat) (eq : s.floor.successor = some q) : some s.own ≠ some q := by
    rintro same
    exact other (eq.trans same.symm)
  obtain ⟨holds, -, idle, owed⟩ := ok.agrees
  rcases holdFloor_cases s with ⟨from_, eq⟩ | ⟨on, eq⟩ | ⟨off, mode, eq⟩
  · have active : s.station.mode = .active := from_.elim ok.bidding_active fun h => h.2
    have off : s.floor.yieldOwed = true → False := fun owe => by
      have := owed owe
      simp_all
    refine .of_agrees (s := s) (m := .active) (by simp [eq]) (by rw [eq, becomeLive_floor]) (by simp [eq, active])
      ⟨?_, successor, by simp, ?_⟩
    · cases s.floor.parkOwed <;> simp [setHolder]
    · simp [setHolder]
      exact fun _ owe => (off owe).elim
  · exact .of_agrees (s := s) (f := (setHolder (some s.own) s).floor) (m := s.station.mode) (by simp [eq]) (by rw [eq])
      (by simp [eq]) ⟨by simpa [setHolder] using on, successor, idle, owed⟩
  · exact .of_agrees (s := s) (f := (setHolder none s).floor) (m := s.station.mode) (by simp [eq]) (by rw [eq])
      (by simp [eq]) ⟨by simp [setHolder, off], by simp [setHolder], idle, owed⟩

/-- A peer made holder in the view of a station that is not on the floor. -/
theorem setHolder_floorOk {h : Option Nat} (peer : h ≠ some s.own) (off : s.floor.state = .idle ∨ s.floor.state = .bidding)
    (successor : ∀ q, s.floor.successor = some q → h ≠ some q) (ok : FloorOk s) : FloorOk (setHolder h s) := by
  obtain ⟨-, -, idle, owed⟩ := ok.agrees
  refine .of_agrees (s := s) (f := (setHolder h s).floor) (m := s.station.mode) rfl rfl rfl ⟨?_, successor, idle, owed⟩
  rcases off with off | off <;> simpa [setHolder, off] using peer

/-- LIVE becomes YIELDING: the station stays the holder. -/
theorem enterYielding_floorOk (live : s.floor.state = .live) (ok : FloorOk s) : FloorOk (enterYielding s) := by
  obtain ⟨holds, successor, idle, owed⟩ := ok.agrees
  refine .of_agrees (s := s) (m := s.station.mode) (by simp) (enterYielding_floor s) (by simp)
    ⟨?_, successor, fun mode => ?_, by simp⟩
  · simpa [live] using holds
  · simp [idle mode] at live

theorem takeOutcome_holds {b : Nat} {f : Floor} (outcome : takeOutcome b f = .holds) :
    f.holder = none ∧ f.successor = none := by
  unfold takeOutcome at outcome
  split at outcome
  · cases outcome
  · split at outcome
    · assumption
    · split at outcome <;> cases outcome

theorem takeOutcome_pends {b : Nat} {f : Floor} (outcome : takeOutcome b f = .pends) :
    f.holder ≠ some b ∧ f.successor = none := by
  unfold takeOutcome at outcome
  split at outcome
  · cases outcome
  · split at outcome
    · cases outcome
    · split at outcome
      · simp_all
      · cases outcome

theorem FloorOk.off_of_holder (ok : FloorOk s) (peer : s.floor.holder ≠ some s.own) :
    s.floor.state = .idle ∨ s.floor.state = .bidding := by
  have off := mt ok.holds_iff.mp peer
  cases state : s.floor.state <;> simp_all

theorem FloorOk.yieldsIfLive (ok : FloorOk s) : FloorOk (if s.floor.state = .live then enterYielding s else s) := by
  split
  · exact enterYielding_floorOk ‹_› ok
  · exact ok

theorem peerPlainTake_floorOk {b : Nat} (peer : b ≠ s.own) (ok : FloorOk s) : FloorOk (peerPlainTake b s) := by
  unfold peerPlainTake
  dsimp only
  split
  · obtain ⟨holder, successor⟩ := takeOutcome_holds ‹_›
    exact (setHolder_floorOk (by simpa using peer) (ok.off_of_holder (by simp [holder])) (by simp [successor]) ok).yieldsIfLive
  · exact (setSuccessor_floorOk (fun q eq => eq ▸ (takeOutcome_pends ‹_›).1) ok).yieldsIfLive
  · exact ok.yieldsIfLive
  · exact ok.yieldsIfLive

theorem loseBid_floorOk (bidding : s.floor.state = .bidding) (ok : FloorOk s) : FloorOk (loseBid s) :=
  ok.mayEnd (by simp) (.inr ⟨bidding, loseBid_floor bidding⟩) (by simp)

theorem ownTakeView_floorOk (ok : FloorOk s) : FloorOk (ownTakeView s) := by
  unfold ownTakeView
  split
  · obtain ⟨-, successor⟩ := takeOutcome_holds ‹_›
    exact holdFloor_floorOk (by simp [successor]) ok
  · exact setSuccessor_floorOk (fun q eq => eq ▸ (takeOutcome_pends ‹_›).1) ok
  · split
    · rename_i holder
      exact holdFloor_floorOk (fun own => ok.agrees.successor _ own holder) ok
    · exact ok
  · exact ok

theorem startBidWait_floorOk (ok : FloorOk s) : FloorOk (startBidWait s) := by
  obtain ⟨holds, successor, idle, owed⟩ := ok.agrees
  exact floorOk_iff.mpr ⟨holds, successor, idle, owed⟩

theorem ownPlainTake_floorOk (ok : FloorOk s) : FloorOk (ownPlainTake s) := by
  have viewed := ownTakeView_floorOk ok
  unfold ownPlainTake
  dsimp only
  split
  · split
    · exact startBidWait_floorOk viewed
    · exact loseBid_floorOk ‹_› viewed
  · exact viewed

/-- The station off the floor with no yield owed, another station or none the holder. -/
theorem FloorOk.of_idle {s : State} (idle : s.floor.state = .idle) (owed : s.floor.yieldOwed = false)
    (peer : s.floor.holder ≠ some s.own) (successor : ∀ q, s.floor.successor = some q → s.floor.holder ≠ some q) :
    FloorOk s :=
  floorOk_iff.mpr ⟨by simpa [idle] using peer, successor, fun _ => idle, by simp [owed]⟩

theorem forcedOffClaims_floor (idle : s.floor.state ≠ .bidding) : (forcedOffClaims s).floor = s.floor :=
  (forcedOffClaims_mayEnd s).eq idle

theorem forcedTakeView_floorOk (b : Nat) (ok : FloorOk s) : FloorOk (forcedTakeView b s) := by
  have cleared := setSuccessor_none_floorOk ok
  unfold forcedTakeView
  dsimp only
  split
  · exact holdFloor_floorOk (by simp [setSuccessor]) cleared
  · rename_i peer
    have holder : some b ≠ some s.own := fun eq => peer (Option.some.inj eq)
    have left : FloorOk (forcedOffClaims (removeUnstarted PacketKind.isYield
        (setFloor .idle ((setHolder (some b) (setSuccessor none s)).modFloor fun u => { u with yieldOwed := false })))) := by
      refine .of_agrees (s := s) (m := s.station.mode) (by simp) ((forcedOffClaims_floor (by simp [setFloor])).trans
        (removeUnstarted_frame _ _).2.2.2.2.2.2.2.2.1) (by simp) ⟨?_, ?_, fun _ => rfl, ?_⟩
      · simpa [setFloor, setHolder] using holder
      · simp [setFloor, setHolder, setSuccessor]
      · simp [setFloor]
    split
    · exact left
    · exact left
    · rename_i bidding
      have seen : FloorOk (setHolder (some b) (setSuccessor none s)) :=
        setHolder_floorOk holder (.inr bidding) (by simp [setSuccessor]) cleared
      split
      · exact loseBid_floorOk bidding seen
      · exact seen
    · rename_i off
      exact setHolder_floorOk holder (.inl off) (by simp [setSuccessor]) cleared

/-- A station that leaves the floor to another or to none. -/
theorem leaveFloor_floorOk (peer : s.floor.holder ≠ some s.own)
    (successor : ∀ q, s.floor.successor = some q → s.floor.holder ≠ some q) : FloorOk (leaveFloor s) :=
  .of_agrees (s := s) (m := s.station.mode) (by simp) (leaveFloor_floor s) (by simp)
    ⟨by simpa using peer, successor, fun _ => rfl, by simp⟩

theorem idled_floorOk (peer : s.floor.holder ≠ some s.own)
    (successor : ∀ q, s.floor.successor = some q → s.floor.holder ≠ some q) :
    FloorOk (setFloor .idle (s.modFloor fun u => { u with yieldOwed := false })) :=
  .of_idle rfl rfl peer successor

theorem yieldView_floorOk (echo : Bool) (q : Option Nat) (ok : FloorOk s) : FloorOk (yieldView echo q s) := by
  have cleared := setSuccessor_none_floorOk ok
  unfold yieldView
  dsimp only
  split
  · generalize view : (if yieldedTo q s = some (setSuccessor none s).own then none else yieldedTo q s) = h
    have peer : h ≠ some s.own := by
      rw [← view]
      split
      · simp
      · assumption
    have none (k : Nat) (eq : (setHolder h (setSuccessor none s)).floor.successor = some k) :
        (setHolder h (setSuccessor .none s)).floor.holder ≠ some k := by cases eq
    split
    · exact leaveFloor_floorOk peer none
    · exact idled_floorOk peer none
  · split
    · exact holdFloor_floorOk (by simp [setSuccessor]) cleared
    · rename_i peer
      have view (off : s.floor.state = .idle ∨ s.floor.state = .bidding) :
          FloorOk (setHolder (yieldedTo q s) (setSuccessor none s)) :=
        setHolder_floorOk peer off (by simp [setSuccessor]) cleared
      split
      · split
        · exact loseBid_floorOk ‹_› (view (.inr ‹_›))
        · exact view (.inr ‹_›)
      · exact leaveFloor_floorOk peer (by simp [setHolder, setSuccessor])
      · exact leaveFloor_floorOk peer (by simp [setHolder, setSuccessor])
      · exact view (.inl ‹_›)

theorem silenceView_floorOk {p : Nat} (peer : p ≠ s.own) (ok : FloorOk s) : FloorOk (silenceView p s) := by
  have cleared := setSuccessor_none_floorOk ok
  unfold silenceView
  dsimp only
  split
  · rename_i holder
    have off := ok.off_of_holder (by simpa [holder] using peer)
    split
    · exact holdFloor_floorOk (by simp [setSuccessor]) cleared
    · exact setHolder_floorOk ‹_› off (by simp [setSuccessor]) cleared
  · split
    · exact cleared
    · exact ok

theorem setPeer_floorOk (p : Nat) (f : Peer → Peer) (ok : FloorOk s) : FloorOk (setPeer p f s) :=
  ok.congr (by simp) (by simp) (by simp)

theorem peerSilentAct_floorOk (p : Nat) (ok : FloorOk s) : FloorOk (peerSilentAct p s) := by
  unfold peerSilentAct
  split
  · rename_i due
    have peer : p ≠ s.own := by
      simp only [peerDue, Bool.and_eq_true, decide_eq_true_eq] at due
      exact due.1.1.2
    exact silenceView_floorOk peer (setPeer_floorOk p _ ok)
  · exact ok

theorem silenceAll_floorOk (l : List Nat) (ok : FloorOk s) : FloorOk (silenceAll l s) := by
  induction l generalizing s with
  | nil => exact ok
  | cons p l ih => exact ih (peerSilentAct_floorOk p ok)

theorem holderFromState_floorOk {p : Nat} (peer : p ≠ s.own) (ok : FloorOk s) : FloorOk (holderFromState p s) := by
  unfold holderFromState
  dsimp only
  split
  · rename_i view
    have off := ok.off_of_holder (by simp [view.1])
    split
    · exact .of_agrees (s := s) (f := _) (m := s.station.mode) rfl rfl rfl
        ⟨by rcases off with off | off <;> simpa [setHolder, setSuccessor, off] using peer, by simp [setSuccessor],
          ok.agrees.idle, ok.agrees.owed⟩
    · rename_i other
      refine setHolder_floorOk (by simpa using peer) off (fun q eq => ?_) ok
      rintro ⟨⟩
      exact other eq
  · exact ok

/-! ### Bids, yields and parking (R116 to R124) -/

theorem bid_floor (s : State) : (bid s).floor = { s.floor with
    state := .bidding, bidCount := 0, bidRunning := false, takeEchoed := false,
    reportDue := s.floor.reportDue || decide (s.floor.state ≠ .bidding) } := by
  simp [bid, setFloor]
  rfl

theorem bid_floorOk (active : s.station.mode = .active) (idle : s.floor.state = .idle) (ok : FloorOk s) :
    FloorOk (bid s) := by
  obtain ⟨holds, successor, -, owed⟩ := ok.agrees
  refine .of_agrees (s := s) (m := .active) (by simp) (bid_floor s) (by simpa using active) ⟨?_, successor, by simp, fun owe => ?_⟩
  · simpa [idle] using holds
  · simp [idle] at owed
    simp [owed] at owe

theorem autoTake_floorOk (ok : FloorOk s) : FloorOk (autoTake s) := by
  unfold autoTake
  split
  · rename_i due
    simp only [autoTakeDue, Bool.and_eq_true, decide_eq_true_eq] at due
    exact bid_floorOk due.1.1.1.2 due.1.1.2 ok
  · exact ok

theorem takeAct_floorOk (ok : FloorOk s) : FloorOk (takeAct s) := by
  unfold takeAct
  split
  · split
    · exact bid_floorOk ‹_› ‹_› ok
    · exact ok
  · exact ok.congr (by simp) (by simp) (by simp)

/-- Counts and marks of the floor unit are not in agreement's reach. -/
theorem FloorOk.modFloor {f : Floor → Floor} (ok : FloorOk s) (state : (f s.floor).state = s.floor.state)
    (holder : (f s.floor).holder = s.floor.holder) (successor : (f s.floor).successor = s.floor.successor)
    (owed : (f s.floor).yieldOwed = true → s.floor.yieldOwed = true ∨ s.floor.state = .yielding) : FloorOk (s.modFloor f) := by
  obtain ⟨holds, other, idle, owes⟩ := ok.agrees
  refine .of_agrees (s := s) (f := f s.floor) (m := s.station.mode) rfl rfl rfl
    ⟨by rwa [state, holder], by rwa [successor, holder], by rwa [state], fun owe => ?_⟩
  rw [state]
  exact (owed owe).elim owes id

theorem bidExpiryAct_floorOk (ok : FloorOk s) : FloorOk (bidExpiryAct s) := by
  unfold bidExpiryAct
  split
  · exact (ok.modFloor (f := fun u => { u with bidRunning := false }) rfl rfl rfl .inl).congr (by simp) (by simp) (by simp)
  · exact ok

theorem deadlineAct_floorOk (ok : FloorOk s) : FloorOk (deadlineAct s) := by
  unfold deadlineAct
  split
  · rename_i due
    simp only [deadlineDue, Bool.and_eq_true, decide_eq_true_eq] at due
    exact (ok.congr (t := yieldDiscard s) (by simp) (by simp) (by simp)).modFloor rfl rfl rfl fun _ => .inr (by simp [due.1.1])
  · exact ok

theorem oweYield_floorOk (ok : FloorOk s) : FloorOk (oweYield s) := by
  unfold oweYield
  split
  · rename_i due
    exact ok.modFloor rfl rfl rfl fun _ => .inr due.1
  · exact ok

theorem parkNow_floorOk (idle : s.floor.state = .idle) (ok : FloorOk s) : FloorOk (parkNow s) := by
  obtain ⟨holds, successor, -, owed⟩ := ok.agrees
  exact .of_agrees (s := s) (f := { s.floor with parkOwed := false }) (m := .parked) rfl rfl rfl
    ⟨holds, successor, fun _ => idle, owed⟩

theorem parkAct_floorOk (ok : FloorOk s) : FloorOk (parkAct s) := by
  unfold parkAct
  split
  · rename_i due
    simp only [parkDue, Bool.and_eq_true, decide_eq_true_eq] at due
    exact parkNow_floorOk due.2 ok
  · exact ok

theorem parkActive_floorOk (ok : FloorOk s) : FloorOk (parkActive s) := by
  unfold parkActive
  split
  · exact parkNow_floorOk ‹_› ok
  · exact (enterYielding_floorOk ‹_› ok).modFloor rfl rfl rfl .inl
  · exact ok.modFloor rfl rfl rfl .inl
  · exact ok.modFloor rfl rfl rfl .inl

theorem parkCode_floorOk (ok : FloorOk s) : FloorOk (parkCode s) := by
  unfold parkCode
  split
  · exact ok
  · exact parkActive_floorOk ok
  · exact ok
  · exact ok
  · exact ok

/-- The mode changes of a station that is off the floor. -/
theorem FloorOk.modStation {f : StationUnit → StationUnit} (ok : FloorOk s) (idle : s.floor.state = .idle) :
    FloorOk (s.modStation f) := by
  obtain ⟨holds, successor, -, owed⟩ := ok.agrees
  exact .of_agrees (s := s) (f := s.floor) (m := (f s.station).mode) rfl rfl rfl ⟨holds, successor, fun _ => idle, owed⟩

theorem FloorOk.idle (ok : FloorOk s) (other : s.station.mode ≠ .active) : s.floor.state = .idle := ok.agrees.idle other

theorem unparkCode_floorOk (ok : FloorOk s) : FloorOk (unparkCode s) := by
  unfold unparkCode
  split
  · exact ok
  · rename_i mode
    exact ok.modStation (ok.idle (by simp [mode]))
  · exact ok
  · exact ok
  · exact ok

/-! ### The modes (R161 to R164) -/

/-- The view of a station that leaves the floor: it is not the holder. -/
def Floor.leftView (own : Nat) (f : Floor) : Option Nat := if f.holder = some own then none else f.holder

theorem Floor.leftView_ne (own : Nat) (f : Floor) : f.leftView own ≠ some own := by
  unfold Floor.leftView
  split
  · simp
  · assumption

theorem Floor.leftView_successor {own : Nat} {f : Floor} {q : Nat} (other : f.holder ≠ some q) : f.leftView own ≠ some q := by
  unfold Floor.leftView
  split
  · simp
  · exact other

/-- The floor after an entry into MUTE or RESETTING: IDLE, nothing owed, no bid (R127). -/
theorem resetFloor_floor (s : State) : (resetFloor s).floor = { s.floor with
    state := .idle, holder := s.floor.leftView s.own, yieldOwed := false, parkOwed := false, bidRunning := false,
    takeEchoed := false,
    reportDue := s.floor.reportDue || decide (s.floor.state ≠ .idle) || decide (s.floor.holder = some s.own) } := by
  unfold resetFloor Floor.leftView
  dsimp only
  by_cases own : s.floor.holder = some s.own
  · have own' : (setFloor .idle s).floor.holder = some (setFloor .idle s).own := own
    rw [if_pos own', if_pos own]
    simp [setFloor, setHolder, own]
  · have own' : ¬ (setFloor .idle s).floor.holder = some (setFloor .idle s).own := own
    rw [if_neg own', if_neg own]
    simp [setFloor, own]

/-- A station that leaves the floor on an entry into MUTE or RESETTING. -/
theorem resetFloor_floorOk (successor : ∀ q, s.floor.successor = some q → s.floor.holder ≠ some q) :
    FloorOk (resetFloor s) :=
  .of_agrees (s := s) (m := s.station.mode) (by simp) (resetFloor_floor s) (by simp)
    ⟨by simpa using s.floor.leftView_ne s.own, fun q eq => Floor.leftView_successor (successor q eq), fun _ => rfl, by simp⟩

/-- What stands before MUTE's floor work: the mode set, the queue emptied, the claims off the floor. -/
def muted (s : State) : State :=
  let s := s.modStation fun u => { u with mode := .mute }
  let s := s.modLine fun l => { l with queue := [], waiting := [] }
  let s := s.modItem fun i => { i with own := .none }
  if s.onFloor then leaveFloorClaims s else s

theorem enterMute_eq (s : State) : enterMute s = resetFloor (muted s) := rfl

theorem muted_floor (s : State) : (muted s).floor = s.floor := by
  unfold muted
  dsimp only
  split <;> simp

theorem enterMute_floorOk (ok : FloorOk s) : FloorOk (enterMute s) := by
  rw [enterMute_eq]
  refine resetFloor_floorOk ?_
  rw [muted_floor]
  exact ok.agrees.successor

theorem resetClaims_mayEnd (s : State) : BidMayEnd s (resetClaims s) := (queueResetCuts_mayEnd _ _).from rfl

theorem BidMayEnd.view {s t : State} (may : BidMayEnd s t) :
    t.floor.holder = s.floor.holder ∧ t.floor.successor = s.floor.successor := by
  rcases may with same | ⟨-, lost⟩
  · exact ⟨congrArg _ same, congrArg _ same⟩
  · rw [lost]
    exact ⟨rfl, rfl⟩

/-- What stands before RESETTING's floor work. -/
def resetBegun (s : State) : State :=
  let s := s.modStation fun u => { u with mode := .resetting, resetCount := 0, parkRemembered := false }
  let s := s.modReport ReportUnit.entered
  let s := resetClaims (resetLine s)
  let s := s.modText BlockBuilder.emptied
  let s := s.modScript ScriptStore.reset
  s.modTimer fun _ => { pace := .normal, hold := false }

theorem enterResetting_eq (s : State) : enterResetting s = resetItem ((resetFloor (resetBegun s)).modPacing PacingSet.reset) :=
  rfl

theorem resetBegun_mayEnd (s : State) : BidMayEnd s (resetBegun s) := by
  unfold resetBegun
  dsimp only
  refine BidMayEnd.keep ?_ (t := resetClaims (resetLine _)) (by rfl)
  exact (resetClaims_mayEnd _).from (by simp)

theorem enterResetting_floorOk (ok : FloorOk s) : FloorOk (enterResetting s) := by
  obtain ⟨holder, successor⟩ := (resetBegun_mayEnd s).view
  rw [enterResetting_eq]
  refine (resetFloor_floorOk (s := resetBegun s) ?_).congr (by simp) (by simp) (by simp)
  rw [holder, successor]
  exact ok.agrees.successor

theorem endResetting_floorOk (idle : s.floor.state = .idle) (ok : FloorOk s) : FloorOk (endResetting s) := by
  obtain ⟨-, -, -, owed⟩ := ok.agrees
  refine .of_agrees (s := s) (f := (endResetting s).floor) (m := .joining) rfl rfl rfl ⟨?_, ?_, fun _ => idle, owed⟩
  · simp [endResetting, setHolder, setSuccessor, idle]
  · simp [endResetting, setHolder, setSuccessor]

theorem drained_mode (s : State) (due : drained s = true) : s.station.mode = .resetting := by
  simp only [drained, Bool.and_eq_true, decide_eq_true_eq] at due
  exact due.1.1.1

theorem drainAct_floorOk (ok : FloorOk s) : FloorOk (drainAct s) := by
  unfold drainAct
  split
  · exact endResetting_floorOk (ok.idle (by simp [drained_mode s ‹_›])) ok
  · exact ok

theorem resetCountAct_floorOk (ok : FloorOk s) : FloorOk (resetCountAct s) := by
  unfold resetCountAct
  split
  · rename_i due
    simp only [resetCountDue, Bool.and_eq_true, decide_eq_true_eq] at due
    exact endResetting_floorOk (ok.idle (by simp [due.1])) ok
  · exact ok

theorem joinAct_floorOk (ok : FloorOk s) : FloorOk (joinAct s) := by
  unfold joinAct
  split
  · rename_i due
    simp only [joinDue, Bool.and_eq_true, decide_eq_true_eq] at due
    exact ok.modStation (ok.idle (by simp [due.1]))
  · exact ok

/-! ### The end of an act -/

theorem settle_floorOk (ok : FloorOk s) : FloorOk (settle s) := by
  have entered : FloorOk (enterWaiting (parkAct s)) := (parkAct_floorOk ok).congr (by simp) (by simp) (by simp)
  have tried : FloorOk (attempts (enterWaiting (parkAct s)).text.queue.length (enterWaiting (parkAct s))) :=
    entered.congr (by simp) (by simp) (by simp)
  exact drainAct_floorOk (autoTake_floorOk ((oweYield_floorOk tried).congr (by simp) (by simp) (by simp)))

theorem floorReport_floorOk (ok : FloorOk s) : FloorOk (floorReport s) := by
  unfold floorReport
  split
  · exact (ok.modFloor (f := fun u => { u with reportDue := false }) rfl rfl rfl .inl).congr (by simp) (by simp) (by simp)
  · exact ok

theorem finish_floorOk (ok : FloorOk s) : FloorOk (finish s) := floorReport_floorOk (settle_floorOk ok)

/-! ### The boundary -/

theorem beginFrame_floorOk (t : Moment) (ok : FloorOk s) : FloorOk (beginFrame t s) := by
  have lined : FloorOk (tickLine (peerTimeAct (timecodeLostAct (lineBoundary t (countFrame s))))) :=
    ok.congr (by simp) (by simp) (by simp)
  refine (lined.congr (t := tickStation _) (by simp) (by simp) rfl).modFloor rfl rfl rfl .inl

/-- The work of a boundary before what every act ends with (log entry 5). -/
def boundaryActs (t : Moment) (s : State) : State :=
  let step := isStep s
  let s := showAndExpire step (beginFrame t s)
  let s := staleWaiting s
  let s := silenceAll stationNumbers s
  let s := builderBoundary (deadlineAct s)
  let s := stateDueAct (bidExpiryAct s)
  let s := s.modTimer fun u => { u with hold := false }
  joinAct (resetCountAct s)

theorem boundary_eq (t : Moment) (s : State) : boundary t s = finish (boundaryActs t s) := rfl

theorem showAndExpire_floorOk (step : Bool) (ok : FloorOk s) : FloorOk (showAndExpire step s) :=
  ok.mayEnd (by simp) (showAndExpire_mayEnd step s) (by simp)

theorem staleWaiting_floorOk (ok : FloorOk s) : FloorOk (staleWaiting s) := ok.congr (by simp) (by simp) (by simp)

theorem builderBoundary_floorOk (ok : FloorOk s) : FloorOk (builderBoundary s) := ok.congr (by simp) (by simp) (by simp)

theorem stateDueAct_floorOk (ok : FloorOk s) : FloorOk (stateDueAct s) := ok.congr (by simp) (by simp) (by simp)

theorem modTimer_floorOk (f : CueTimer → CueTimer) (ok : FloorOk s) : FloorOk (s.modTimer f) := ok

theorem boundaryActs_floorOk (t : Moment) (ok : FloorOk s) : FloorOk (boundaryActs t s) := by
  have shown := showAndExpire_floorOk (isStep s) (beginFrame_floorOk t ok)
  have silenced := silenceAll_floorOk stationNumbers (staleWaiting_floorOk shown)
  have built := builderBoundary_floorOk (deadlineAct_floorOk silenced)
  have stated := stateDueAct_floorOk (bidExpiryAct_floorOk built)
  exact joinAct_floorOk (resetCountAct_floorOk (modTimer_floorOk _ stated))

/-! ### Packets and echoes -/

theorem takeTime_floorOk (sender : Nat) (b : StateBody) (passed : Nat) (ok : FloorOk s) :
    FloorOk (takeTime sender b passed s) := by
  unfold takeTime
  split
  · dsimp only
    split
    · exact ok
    · exact FloorOk.mayEnd (s := s.modRef _) ok (by simp) (phaseLoad_mayEnd _ _) (by simp)
  · exact ok

theorem joinItem_floorOk (number : Byte) (ok : FloorOk s) : FloorOk (joinItem number s) :=
  ok.congr (by simp) (by simp) (by simp)

theorem overtakenTest_floor (s : State) : (overtakenTest s).floor = s.floor := by simp

theorem takeState_floorOk {sender : Nat} (b : StateBody) (passed : Nat) (peer : sender ≠ s.own) (ok : FloorOk s) :
    FloorOk (takeState sender b passed s) := by
  have told : FloorOk (announce sender b s) := setPeer_floorOk _ _ ok
  have timed := takeTime_floorOk sender b passed told
  have own : (takeTime sender b passed (announce sender b s)).own = s.own := State.own_congr (by simp)
  have held := joinItem_floorOk b.item (holderFromState_floorOk (own ▸ peer) timed)
  exact held.mayEnd (by simp [takeState])
    (((mapState_mayEnd sender b.claims _).trans (expireCues_mayEnd _)).keep (overtakenTest_floor _)) (by simp [takeState])

theorem takeItem_floorOk (echo : Bool) (b : Frame) (k : Byte) (ok : FloorOk s) : FloorOk (takeItem echo b k s) :=
  ok.congr (by simp) (by simp) (by simp)

theorem deliverEcho_floorOk (sent : Sent) (ok : FloorOk s) : FloorOk (deliverEcho sent s) := by
  unfold deliverEcho
  split
  · exact ok.mayEnd (by simp) (cueEcho_mayEnd _ s) (by simp)
  · exact ok.mayEnd (by simp) (reviseEcho_mayEnd _ _ s) (by simp)
  · exact ok.mayEnd (by simp) (cutEcho_mayEnd _ _ s) (by simp)
  · split
    · exact forcedTakeView_floorOk _ ok
    · exact ownPlainTake_floorOk ok
  · exact yieldView_floorOk true _ ok
  · exact takeItem_floorOk true _ _ ok
  · exact ok.mayEnd (by simp) (stateEcho_mayEnd _ s) (by simp)

theorem packetLeft_frame (q : QPacket) (s : State) : (packetLeft q s).straps = s.straps ∧
    (packetLeft q s).floor = s.floor ∧ (packetLeft q s).station = s.station := by
  unfold packetLeft
  split <;> simp

theorem echoAct_floorOk (q : QPacket) (sent : Sent) (ok : FloorOk s) : FloorOk (echoAct q sent s) := by
  obtain ⟨straps, floor, station⟩ := packetLeft_frame q s
  have left : FloorOk (packetLeft q s) := ok.congr straps floor (congrArg _ station)
  have heard : FloorOk (markHeard s.own (packetLeft q s)) := left.congr (by simp) (by simp) (by simp)
  rw [echoAct_eq]
  split
  · split
    · exact deliverEcho_floorOk sent heard
    · exact heard.congr (by simp) (by simp) (by simp)
  · exact left

theorem hear_floorOk {sender : Nat} {k : Packet} {f : State → State}
    (deliver : ∀ u, sender ≠ u.own → FloorOk u → FloorOk (f u)) (ok : FloorOk s) : FloorOk (hear sender k f s) := by
  have heard : FloorOk (markHeard sender (endReception s)) := ok.congr (by simp) (by simp) (by simp)
  refine hear_cases ok ok (fun _ => enterMute_floorOk ok) (fun _ => heard.congr (by simp) (by simp) (by simp))
    fun _ peer _ => deliver _ ?_ heard
  rwa [State.own_congr (t := markHeard sender (endReception s)) (s := s) (by simp)]

end

end Sys2Proof.Machine
end

section
/-! The end of an act: what it leaves done (R50, R117, R120, R124, R125, R154, R163), and that it does nothing where nothing is
due. -/

namespace Sys2Proof.Machine

/-! ### The tests -/

theorem attemptDue_iff {s : State} : attemptDue s = true ↔
    s.station.mode = .active ∧ s.onFloor = true ∧ s.claims.length < 4 ∧ notOnAir s.claims < 2 ∧
      s.line.queue.length < classPlaces ∧ s.text.queue ≠ [] ∧ s.timer.hold = false := by
  simp only [attemptDue, gateOpen, Bool.and_eq_true, decide_eq_true_eq, Bool.not_eq_true', List.isEmpty_eq_false_iff]
  tauto

theorem autoTakeDue_iff {s : State} : autoTakeDue s = true ↔
    s.straps.auto = true ∧ s.station.mode = .active ∧ s.floor.state = .idle ∧ s.text.queue ≠ [] ∧ s.floor.holder = none := by
  simp only [autoTakeDue, Bool.and_eq_true, decide_eq_true_eq, Bool.not_eq_true', List.isEmpty_eq_false_iff]
  tauto

theorem parkDue_iff {s : State} : parkDue s = true ↔ s.floor.parkOwed = true ∧ s.floor.state = .idle := by
  simp [parkDue]

theorem drained_iff {s : State} : drained s = true ↔
    s.station.mode = .resetting ∧ (∀ c ∈ s.claims, c.withdrawal = none) ∧ (∀ q ∈ s.line.queue, q.mark ≠ .entryCut) ∧
      s.transmitting = false := by
  simp [drained]
  tauto

theorem hasPacket_iff {p : PacketKind → Bool} {s : State} :
    hasPacket p s = true ↔ ∃ q ∈ s.line.queue ++ s.line.waiting, p q.kind = true := by
  simp only [hasPacket, Bool.or_eq_true, List.any_eq_true, List.mem_append]
  exact ⟨fun | .inl ⟨q, mem, is⟩ => ⟨q, .inl mem, is⟩ | .inr ⟨q, mem, is⟩ => ⟨q, .inr mem, is⟩,
    fun | ⟨q, .inl mem, is⟩ => .inl ⟨q, mem, is⟩ | ⟨q, .inr mem, is⟩ => .inr ⟨q, mem, is⟩⟩

theorem onFloor_congr {s t : State} (state : t.floor.state = s.floor.state) : t.onFloor = s.onFloor := by
  simp only [State.onFloor, state]

/-! ### Waiting requests (R154) -/

/-- No request waits that has a place. -/
def LineUnit.Entered (l : LineUnit) : Prop := l.waiting = [] ∨ classPlaces ≤ l.queue.length

theorem LineUnit.entered_done (l : LineUnit) : l.entered.Entered := by
  rcases Nat.lt_or_ge (classPlaces - l.queue.length) l.waiting.length with more | few
  · refine .inr ?_
    simp only [LineUnit.entered, List.length_append, List.length_take]
    omega
  · exact .inl (List.drop_eq_nil_of_le few)

theorem enterWaiting_entered (s : State) : (enterWaiting s).line.Entered := by
  rw [enterWaiting_line]
  exact s.line.entered_done

theorem LineUnit.Entered.asked {l : LineUnit} (done : l.Entered) (k : PacketKind) : (l.asked k).Entered := by
  unfold LineUnit.asked LineUnit.Entered at *
  split
  · exact .inl (done.resolve_right (by omega))
  · exact .inr (by simp; omega)

theorem requestPacket_line (k : PacketKind) (s : State) : (requestPacket k s).line = s.line.asked k := by
  rw [requestPacket_eq]

theorem LineUnit.asked_queue_length (k : PacketKind) (l : LineUnit) : l.queue.length ≤ (l.asked k).queue.length := by
  unfold LineUnit.asked
  split <;> simp

/-- Where no request waits that has a place, none enters. -/
theorem enterWaiting_of_entered {s : State} (done : s.line.Entered) : enterWaiting s = s := by
  have none : s.line.waiting.take (classPlaces - s.line.queue.length) = [] := by
    rcases done with empty | full
    · simp [empty]
    · simp [Nat.sub_eq_zero_of_le full]
  have stay : s.line.waiting.drop (classPlaces - s.line.queue.length) = s.line.waiting := by
    rcases done with empty | full
    · simp [empty]
    · simp [Nat.sub_eq_zero_of_le full]
  rw [enterWaiting_eq, LineUnit.entered, none, stay]
  simp

/-! ### Attempts (R50) -/

/-- The three ends of an attempt, by the state it leaves. -/
theorem planBlock_cases (b : Block) (s : State) :
    (planBlock b s = s.modTimer fun t => { t with hold := true }) ∨
    (planBlock b s = pushReport (.dropped .stale (some b.seq)) ((takeHead s).flag .staleDrop)) ∨
    ∃ pace c, c.state = .planned ∧ planBlock b s =
      requestPacket (.cue b.seq) (((takeHead s).modTimer fun t => { t with pace := pace }).setClaims (s.claims ++ [c])) := by
  unfold planBlock
  dsimp only
  split
  · exact .inl rfl
  · split
    · exact .inr (.inl rfl)
    · exact .inr (.inr ⟨_, _, rfl, rfl⟩)

/-- The state of an attempt after stage 1. -/
theorem attempt_eq {b : Block} {rest : List Block} {s : State} (queue : s.text.queue = b :: rest) :
    attempt s = planBlock b (reflectAtBlock s) := by
  rw [attempt, queue]

/-- An attempt holds the head block, or takes it from the queue. -/
theorem attempt_progress {s : State} (queue : s.text.queue ≠ []) :
    (attempt s).timer.hold = true ∨ (attempt s).text.queue.length + 1 = s.text.queue.length := by
  obtain ⟨b, rest, eq⟩ := List.exists_cons_of_ne_nil queue
  rw [attempt_eq eq]
  rcases planBlock_cases b (reflectAtBlock s) with holds | drops | ⟨pace, c, -, plans⟩
  · exact .inl (by rw [holds]; rfl)
  · exact .inr (by rw [drops]; simp [takeHead, eq])
  · exact .inr (by rw [plans]; simp [takeHead, eq])

theorem attempt_entered {s : State} (done : s.line.Entered) : (attempt s).line.Entered := by
  unfold attempt
  split
  · rename_i b rest queue
    have line : (reflectAtBlock s).line = s.line := by simp
    rcases planBlock_cases b (reflectAtBlock s) with holds | drops | ⟨pace, c, -, plans⟩
    · rw [holds]
      exact line ▸ done
    · rw [drops]
      simpa [takeHead, line] using done
    · rw [plans, requestPacket_line]
      exact LineUnit.Entered.asked (by simpa [takeHead, line] using done) _
  · exact done

theorem attempts_entered (k : Nat) {s : State} (done : s.line.Entered) : (attempts k s).line.Entered := by
  induction k generalizing s with
  | zero => exact done
  | succ k ih =>
    unfold attempts
    split
    · exact ih (attempt_entered done)
    · exact done

/-- No attempt is due once every block has had its attempt. -/
theorem attempts_done (k : Nat) {s : State} (enough : s.text.queue.length ≤ k) : attemptDue (attempts k s) = false := by
  induction k generalizing s with
  | zero =>
    have empty : s.text.queue = [] := List.eq_nil_of_length_eq_zero (Nat.le_zero.mp enough)
    simp [attempts, attemptDue, empty]
  | succ k ih =>
    unfold attempts
    split
    · rename_i due
      obtain ⟨-, -, -, -, -, queue, -⟩ := attemptDue_iff.mp due
      rcases attempt_progress queue with hold | shorter
      · cases k <;> simp [attempts, attemptDue, hold]
      · exact ih (by omega)
    · exact Bool.eq_false_of_not_eq_true ‹_›

/-! ### The parts of the end of an act -/

theorem parkAct_done (s : State) : parkDue (parkAct s) = false := by
  unfold parkAct
  split
  · simp [parkDue, parkNow]
  · exact Bool.eq_false_of_not_eq_true ‹_›

theorem oweYield_done (s : State) :
    (oweYield s).floor.state = .yielding → (oweYield s).floor.yieldOwed = true ∨ nothingLeft (oweYield s) = false := by
  intro yielding
  unfold oweYield at *
  split
  · exact .inl rfl
  · rename_i due
    rw [if_neg due] at yielding
    cases owed : s.floor.yieldOwed <;> cases left : nothingLeft s <;> simp_all

/-- What stays of the floor where a yield becomes owed. -/
theorem oweYield_floor (s : State) : (oweYield s).floor.state = s.floor.state ∧
    (oweYield s).floor.parkOwed = s.floor.parkOwed ∧ (oweYield s).floor.holder = s.floor.holder := by
  unfold oweYield
  split <;> exact ⟨rfl, rfl, rfl⟩

theorem hasPacket_requestPacket (p : PacketKind → Bool) {k : PacketKind} (is : p k = true) (s : State) :
    hasPacket p (requestPacket k s) = true := by
  rw [hasPacket_iff, requestPacket_line]
  exact ⟨.fresh k, (s.line.asked_perm k).mem_iff.mpr (by simp), is⟩

theorem queueYield_done (s : State) :
    (queueYield s).floor.yieldOwed = true → hasPacket PacketKind.isYield (queueYield s) = true := by
  intro owed
  rcases queueYield_cases s with ⟨-, -, asked⟩ | ⟨none, same⟩
  · rw [asked]
    exact hasPacket_requestPacket _ rfl s
  · rw [same] at owed ⊢
    exact none.resolve_left (by simp [owed])

theorem queueYield_entered {s : State} (done : s.line.Entered) : (queueYield s).line.Entered := by
  rcases queueYield_cases s with ⟨-, -, asked⟩ | ⟨-, same⟩
  · rw [asked, requestPacket_line]
    exact done.asked _
  · rwa [same]

theorem queueYield_queue_length (s : State) : s.line.queue.length ≤ (queueYield s).line.queue.length := by
  rcases queueYield_cases s with ⟨-, -, asked⟩ | ⟨-, same⟩
  · rw [asked, requestPacket_line]
    exact LineUnit.asked_queue_length _ _
  · rw [same]

/-- No attempt is due where none was and nothing but the queue has grown. -/
theorem attemptDue_false_of {s t : State} (none : attemptDue s = false) (mode : t.station.mode = s.station.mode)
    (state : t.floor.state = s.floor.state) (claims : t.claims = s.claims)
    (queue : s.line.queue.length ≤ t.line.queue.length) (text : t.text.queue = s.text.queue)
    (hold : t.timer.hold = s.timer.hold) : attemptDue t = false := by
  rw [← Bool.not_eq_true, attemptDue_iff] at none ⊢
  rw [mode, onFloor_congr state, claims, text, hold]
  exact fun ⟨active, floor, length, air, places, rest⟩ => none ⟨active, floor, length, air, by omega, rest⟩

/-! ### The end of an act leaves nothing due -/

/-- What stands before the auto-take test: no attempt, park or waiting request is due, and the yield is owed and queued. -/
structure YieldDone (s : State) : Prop where
  floor : FloorOk s
  attempt : attemptDue s = false
  park : parkDue s = false
  entered : s.line.Entered
  owed : s.floor.state = .yielding → s.floor.yieldOwed = true ∨ nothingLeft s = false
  queued : s.floor.yieldOwed = true → hasPacket PacketKind.isYield s = true

theorem FloorOk.not_owed {s : State} (ok : FloorOk s) (idle : s.floor.state = .idle) : s.floor.yieldOwed = false := by
  have owed := ok.agrees.owed
  cases owe : s.floor.yieldOwed
  · rfl
  · simp [idle, owe] at owed

theorem bid_line (s : State) : (bid s).line = s.line.asked (.take false) := by
  rw [bid, requestPacket_line]
  rfl

theorem autoTake_done {s : State} (done : YieldDone s) : YieldDone (autoTake s) ∧ autoTakeDue (autoTake s) = false := by
  unfold autoTake
  split
  · rename_i due
    obtain ⟨-, active, idle, -, -⟩ := autoTakeDue_iff.mp due
    have bidding : (bid s).floor.state = .bidding := by rw [bid_floor]
    have owed : (bid s).floor.yieldOwed = false := by
      rw [bid_floor]
      exact done.floor.not_owed idle
    have off : (bid s).onFloor = false := by simp [State.onFloor, bidding]
    refine ⟨⟨bid_floorOk active idle done.floor, ?_, ?_, ?_, ?_, ?_⟩, ?_⟩
    · simp [attemptDue, gateOpen, off]
    · simp [parkDue, bidding]
    · rw [bid_line]
      exact done.entered.asked _
    · simp [bidding]
    · simp [owed]
    · simp [autoTakeDue, bidding]
  · exact ⟨done, Bool.eq_false_of_not_eq_true ‹_›⟩

theorem endResetting_floor (s : State) : (endResetting s).floor = { s.floor with
    holder := none, successor := none, reportDue := s.floor.reportDue || decide (s.floor.holder ≠ none) } := rfl

theorem drainAct_done {s : State} (done : YieldDone s) (noTake : autoTakeDue s = false) :
    YieldDone (drainAct s) ∧ autoTakeDue (drainAct s) = false ∧ drained (drainAct s) = false := by
  unfold drainAct
  split
  · rename_i due
    have mode : (endResetting s).station.mode = .joining := rfl
    have idle : s.floor.state = .idle := done.floor.idle (by simp [drained_mode s due])
    have owed := done.floor.not_owed idle
    have park := done.park
    refine ⟨⟨endResetting_floorOk idle done.floor, ?_, ?_, .inl rfl, ?_, ?_⟩, ?_, ?_⟩
    · simp [attemptDue, gateOpen, mode]
    · simpa [parkDue, endResetting_floor] using park
    · simp [endResetting_floor, idle]
    · simp [endResetting_floor, owed]
    · simp [autoTakeDue, mode]
    · simp [drained, mode]
  · exact ⟨done, noTake, Bool.eq_false_of_not_eq_true ‹_›⟩

theorem settle_done {s : State} (ok : FloorOk s) :
    YieldDone (settle s) ∧ autoTakeDue (settle s) = false ∧ drained (settle s) = false := by
  have park : parkDue (parkAct s) = false := parkAct_done s
  have entered : (enterWaiting (parkAct s)).line.Entered := enterWaiting_entered _
  have floor₁ : FloorOk (enterWaiting (parkAct s)) := (parkAct_floorOk ok).congr (by simp) (by simp) (by simp)
  generalize first : enterWaiting (parkAct s) = u at entered floor₁
  have park₁ : parkDue u = false := by
    rw [← first]
    simpa [parkDue] using park
  have tried := attempts_done u.text.queue.length (s := u) (Nat.le_refl _)
  have entered₂ := attempts_entered u.text.queue.length entered
  have floor₂ : FloorOk (attempts u.text.queue.length u) := floor₁.congr (by simp) (by simp) (by simp)
  have park₂ : parkDue (attempts u.text.queue.length u) = false := by simpa [parkDue] using park₁
  have eq : settle s = drainAct (autoTake (queueYield (oweYield (attempts u.text.queue.length u)))) := by
    rw [← first]
    rfl
  generalize attempts u.text.queue.length u = v at tried entered₂ floor₂ park₂ eq
  obtain ⟨state, parkOwed, -⟩ := oweYield_floor v
  have done : YieldDone (queueYield (oweYield v)) := by
    refine ⟨(oweYield_floorOk floor₂).congr (by simp) (by simp) (by simp), ?_, ?_, ?_, ?_, queueYield_done _⟩
    · refine attemptDue_false_of tried (by simp) (by simp [state]) (by simp) ?_ (by simp) (by simp)
      have grown := queueYield_queue_length (oweYield v)
      simpa using grown
    · simpa [parkDue, state, parkOwed] using park₂
    · exact queueYield_entered (by simpa using entered₂)
    · simpa [nothingLeft] using oweYield_done v
  rw [eq]
  obtain ⟨took, noTake⟩ := autoTake_done done
  exact drainAct_done took noTake

theorem floorReport_floor (s : State) : (floorReport s).floor = { s.floor with reportDue := false } := by
  unfold floorReport
  split
  · simp
  · rename_i none
    have none : s.floor.reportDue = false := by simpa using none
    rw [← none]

theorem finish_settled {s : State} (ok : FloorOk s) : Settled (finish s) := by
  obtain ⟨⟨-, attempt, park, entered, owed, queued⟩, noTake, notDrained⟩ := settle_done ok
  unfold finish
  generalize settle s = u at attempt park entered owed queued noTake notDrained
  have floor := floorReport_floor u
  refine ⟨?_, ?_, ?_, ?_, by rw [floor], ?_, ?_, ?_⟩
  · exact attemptDue_false_of attempt (by simp) (by simp [floor]) (by simp) (by simp) (by simp) (by simp)
  · simpa [autoTakeDue, floor] using noTake
  · simpa [parkDue, floor] using park
  · simpa [drained, State.transmitting] using notDrained
  · simpa [LineUnit.Entered] using entered
  · simpa [floor, nothingLeft] using owed
  · simpa [floor, hasPacket] using queued

/-! ### Where nothing is due nothing is done -/

theorem attempts_of_not_due (k : Nat) {s : State} (none : attemptDue s = false) : attempts k s = s := by
  cases k with
  | zero => rfl
  | succ k => simp [attempts, none]

theorem Settled.entered {s : State} (settled : Settled s) : s.line.Entered := settled.2.2.2.2.2.1

theorem settle_of_settled {s : State} (settled : Settled s) : settle s = s := by
  obtain ⟨attempt, take, park, notDrained, -, entered, owed, queued⟩ := settled
  have notOwed : ¬ (s.floor.state = .yielding ∧ s.floor.yieldOwed = false ∧ nothingLeft s = true) := by
    rintro ⟨yielding, notOwed, nothing⟩
    rcases owed yielding with owed | left <;> simp_all
  have parked : parkAct s = s := by simp [parkAct, park]
  have owes : oweYield s = s := if_neg notOwed
  have yields : queueYield s = s := by
    rcases queueYield_cases s with ⟨owe, noYield, -⟩ | ⟨-, same⟩
    · simp [queued owe] at noYield
    · exact same
  simp [settle, parked, enterWaiting_of_entered entered, attempts_of_not_due _ attempt, owes, yields, autoTake, take, drainAct,
    notDrained]

theorem floorReport_of_not_due {s : State} (none : s.floor.reportDue = false) : floorReport s = s := by
  simp [floorReport, none]

theorem finish_of_settled {s : State} (settled : Settled s) : finish s = s := by
  rw [finish, settle_of_settled settled]
  exact floorReport_of_not_due settled.2.2.2.2.1

end Sys2Proof.Machine
end

section
/-! Every command completes and leaves the queue of commands alone; every command ends with nothing due and the floor in
agreement. -/

namespace Sys2Proof.Machine

/-! ### Every command completes -/

/-- The outcome is a next state, with the queue of commands as it was. -/
def Completes (s : State) (o : Host.Outcome State Fault Refusal) : Prop := ∃ t, o = .next t ∧ t.pending = s.pending

theorem Completes.next {s u : State} (kept : u.pending = s.pending) : Completes s (.next u) := ⟨u, rfl, kept⟩

theorem Completes.finish {s u : State} (kept : u.pending = s.pending) : Completes s (.next (finish u)) :=
  .next (by simp [kept])

theorem Completes.ite {s : State} {p : Prop} [Decidable p] {o₁ o₂ : Host.Outcome State Fault Refusal}
    (h₁ : Completes s o₁) (h₂ : Completes s o₂) : Completes s (if p then o₁ else o₂) := by
  split
  · exact h₁
  · exact h₂

theorem Completes.plainCode {f : State → State} (kept : ∀ u, (f u).pending = u.pending) (s : State) :
    Completes s (.next (plainCode f s)) := by
  refine .next ?_
  unfold Machine.plainCode
  split <;> simp [kept]

theorem Completes.actCode {f : State → State} (kept : ∀ u, (f u).pending = u.pending) (s : State) :
    Completes s (.next (actCode f s)) := by
  refine .next ?_
  unfold Machine.actCode
  split <;> simp [kept]

theorem Completes.hear {f : State → State} (kept : ∀ u, (f u).pending = u.pending) (p : Nat) (k : Packet) (s : State) :
    Completes s (.next (Machine.finish (hear p k f s))) :=
  .finish (hear_cases (P := fun u => u.pending = s.pending) (by simp) (by simp) (fun _ => by simp) (fun _ => by simp)
    fun _ _ _ => by simp [kept])

theorem takeCharacter_pending (c : Byte) (s : State) : (takeCharacter c s).pending = s.pending := by
  unfold takeCharacter
  split
  · rfl
  · split <;> simp

theorem discardByte_pending (framingError : Bool) (b : Byte) (s : State) :
    (discardByte framingError b s).pending = s.pending := by
  unfold discardByte
  split <;> simp

theorem execPacketEcho_completes (s : State) : Completes s (execPacketEcho s) := by
  unfold execPacketEcho
  split
  · split
    · exact .finish (by simp)
    · exact .next rfl
  · exact .next rfl

theorem execReadbackMismatch_completes (s : State) : Completes s (execReadbackMismatch s) := by
  unfold execReadbackMismatch
  split
  · exact .finish (by simp)
  · exact .next rfl

/-- Settles O2: every row of the table has a meaning that answers a next state and leaves the queue of commands. -/
theorem noCommandStops : Obligations.NoCommandStops := by
  intro c s
  change Completes s (exec c s)
  cases c with
  | powerOn pins m => exact .next rfl
  | referencePulse t => exact .ite (.next (by simp [pulseInstant])) (.next rfl)
  | flywheelExpiry => exact .next (by simp [flywheelInstant])
  | guardWindowOpen => exact .next rfl
  | timecodeValue h m sec f => exact .ite (.next rfl) (.next rfl)
  | timecodeLost => exact .next (by simp)
  | peerTimeSilenceExpiry => exact .next (by simp)
  | character b => exact .ite (.next rfl) (.ite (.finish (takeCharacter_pending b s)) (.next (discardByte_pending _ b s)))
  | discardedByte framingError b => exact .ite (.next rfl) (.next (discardByte_pending _ b s))
  | endBlock => exact .actCode (fun u => by unfold endBlockAct; split <;> simp) s
  | speaker => exact .actCode (fun u => by unfold speakerAct; split <;> simp) s
  | retract => exact .actCode (fun u => by unfold retractAct; split <;> simp) s
  | scriptBegin => exact .plainCode (fun u => u.modScript_pending _) s
  | scriptEnd => exact .plainCode (fun u => by unfold scriptEndAct; split <;> simp) s
  | loopOn => exact .plainCode (fun u => u.modScript_pending _) s
  | loopOff => exact .plainCode (fun u => u.modScript_pending _) s
  | next => exact .actCode (fun _ => by simp) s
  | take => exact .actCode (fun u => by unfold takeAct; (repeat' split) <;> simp) s
  | yield => exact .actCode (fun u => by unfold yieldAct; split <;> simp) s
  | park => exact .actCode (fun u => by unfold parkCode parkActive; (repeat' split) <;> simp) s
  | unpark => exact .actCode (fun u => by unfold unparkCode; split <;> simp) s
  | hold => exact .plainCode (fun u => u.modPacing_pending _) s
  | release => exact .plainCode (fun u => by unfold releaseAct; split <;> simp) s
  | status => exact .plainCode (f := statusAct) (fun _ => rfl) s
  | reset => exact .ite (.next rfl) (.ite (.next (by simp)) (.finish (by simp)))
  | paceIntroducer => exact .plainCode (fun u => u.modPacing_pending _) s
  | paceTerminator => exact .ite (.next rfl) (.next (by simp))
  | idleClose => exact .finish (by simp)
  | yieldDeadline => exact .finish (by simp)
  | bidWaitExpiry => exact .finish (by simp)
  | peerSilent peer => exact .finish (by simp)
  | stateDue => exact .next (by simp)
  | mismatchCountExpiry => exact .next rfl
  | joinWaitExpiry => exact .finish (by simp)
  | resetCountExpiry => exact .finish (by simp)
  | resetDrained => exact .next (by simp)
  | deferredPark => exact .next (by simp)
  | itemContactClose => exact .next (by unfold contactAct; (repeat' split) <;> simp)
  | lineIdle t => exact .ite (.next rfl) (.next rfl)
  | transmissionStart t => exact .ite (.finish (by simp)) (.next rfl)
  | packetEcho => exact execPacketEcho_completes s
  | readbackMismatch => exact execReadbackMismatch_completes s
  | waitingRequestEntry => exact .next (by simp)
  | cutShortPacket => exact .next (by simp)
  | discardedPacket => exact .next (by simp)
  | cuePacket sender body => exact .hear (fun _ => by simp) sender _ s
  | revisePacket sender body => exact .hear (fun _ => by simp) sender _ s
  | cutPacket sender seq off => exact .hear (fun _ => by simp) sender _ s
  | plainTake sender => exact .hear (fun _ => by simp) sender _ s
  | forcedTake sender => exact .hear (fun _ => by simp) sender _ s
  | yieldPacket sender successor => exact .hear (fun _ => by simp) sender _ s
  | itemPacket sender boundary number => exact .hear (fun _ => by simp) sender _ s
  | statePacket sender body => exact .hear (fun _ => by simp) sender _ s
  | reportLineSent => exact .next rfl
  | lineBusy => exact .ite (.next rfl) (.next rfl)

/-- Settles O1: both branches of `step`. -/
theorem stepTakesFrontCommand : Obligations.StepTakesFrontCommand := by
  refine ⟨fun c rest s front => ?_, fun s none => ?_⟩
  · simp [step, front]
  · simp [step, none]

/-! ### Settled states that stay settled -/

/-- What `Settled` reads stands. -/
theorem Settled.congr {s t : State} (settled : Settled s) (straps : t.straps = s.straps)
    (mode : t.station.mode = s.station.mode) (text : t.text = s.text) (timer : t.timer = s.timer) (claims : t.claims = s.claims)
    (floor : t.floor = s.floor) (queue : t.line.queue = s.line.queue) (waiting : t.line.waiting = s.line.waiting) : Settled t := by
  obtain ⟨attempt, take, park, notDrained, reported, entered, owed, queued⟩ := settled
  refine ⟨?_, ?_, ?_, ?_, by rwa [floor], by rwa [queue, waiting], ?_, ?_⟩
  · simpa [attemptDue, gateOpen, State.onFloor, mode, text, timer, claims, floor, queue] using attempt
  · simpa [autoTakeDue, straps, mode, text, floor] using take
  · simpa [parkDue, floor] using park
  · simpa [drained, State.transmitting, mode, claims, queue] using notDrained
  · simpa [nothingLeft, floor, text] using owed
  · simpa [hasPacket, floor, queue, waiting] using queued

/-- A packet asked for, or asked for anew, outside RESETTING. -/
theorem Settled.packets {s t : State} (settled : Settled s) (straps : t.straps = s.straps) (station : t.station = s.station)
    (text : t.text = s.text) (timer : t.timer = s.timer) (claims : t.claims = s.claims) (floor : t.floor = s.floor)
    (running : s.station.mode ≠ .resetting) (more : s.line.queue.length ≤ t.line.queue.length) (entered : t.line.Entered)
    (yields : hasPacket PacketKind.isYield s = true → hasPacket PacketKind.isYield t = true) : Settled t := by
  obtain ⟨attempt, take, park, -, reported, -, owed, queued⟩ := settled
  refine ⟨attemptDue_false_of attempt (by rw [station]) (by rw [floor]) claims more (by rw [text]) (by rw [timer]), ?_, ?_, ?_,
    by rwa [floor], entered, ?_, fun owe => yields (queued (floor ▸ owe))⟩
  · simpa [autoTakeDue, straps, station, text, floor] using take
  · simpa [parkDue, floor] using park
  · simp [drained, station, running]
  · simpa [nothingLeft, floor, text] using owed

theorem hasPacket_asked {p : PacketKind → Bool} {s t : State} {k : PacketKind} (line : t.line = s.line.asked k)
    (held : hasPacket p s = true) : hasPacket p t = true := by
  rw [hasPacket_iff] at held ⊢
  obtain ⟨q, mem, is⟩ := held
  exact ⟨q, line ▸ (s.line.asked_perm k).mem_iff.mpr (.tail _ mem), is⟩

theorem Settled.requestPacket {s : State} {k : PacketKind} (settled : Settled s) (running : s.station.mode ≠ .resetting) :
    Settled (requestPacket k s) := by
  have line := requestPacket_line k s
  refine settled.packets (by simp) (by simp) (by simp) (by simp) (by simp) (by simp) running ?_ ?_ (hasPacket_asked line)
  · rw [line]
    exact LineUnit.asked_queue_length _ _
  · rw [line]
    exact settled.entered.asked k

theorem replaceState_isYield (q : QPacket) : (replaceState q).kind.isYield = q.kind.isYield := by
  unfold replaceState
  split
  · rename_i state
    rw [state]
    rfl
  · rfl

theorem queueState_settled {s : State} (settled : Settled s) (running : s.station.mode ≠ .resetting) :
    Settled (queueState s) := by
  unfold queueState
  split
  · exact settled
  · split
    · refine settled.packets rfl rfl rfl rfl rfl rfl running (by simp) ?_ ?_
      · have entered := settled.entered
        simpa [LineUnit.Entered] using entered
      · simp [hasPacket, Function.comp_def, replaceState_isYield]
    · exact settled.requestPacket running

theorem stateDueAct_settled {s : State} (settled : Settled s) : Settled (stateDueAct s) := by
  have restarted : Settled (s.modLine fun l => { l with phase := 0 }) :=
    settled.congr rfl rfl rfl rfl rfl rfl rfl rfl
  unfold stateDueAct
  dsimp only
  split
  · split
    · rename_i mode
      refine queueState_settled restarted fun resetting => ?_
      simp_all
    · exact restarted
  · exact settled

theorem contactAct_settled {s : State} (settled : Settled s) : Settled (contactAct s) := by
  unfold contactAct
  split
  · rename_i may
    have asked : Settled (requestPacket .item s) := settled.requestPacket fun resetting => by simp [resetting] at may
    split <;> exact asked.congr rfl rfl rfl rfl rfl rfl rfl rfl
  · exact settled

/-! ### How commands end -/

/-- A command ends with the work of every act on a state in agreement, or leaves nothing due where nothing was. -/
def Ends (s t : State) : Prop := (∃ u, FloorOk u ∧ t = finish u) ∨ (FloorOk t ∧ (Settled s → Settled t))

theorem Ends.finish {s u : State} (ok : FloorOk u) : Ends s (finish u) := .inl ⟨u, ok, rfl⟩

theorem Ends.same {s : State} (ok : FloorOk s) : Ends s s := .inr ⟨ok, id⟩

/-- An act that changes nothing that can make work. -/
theorem Ends.quiet {s t : State} (ok : FloorOk s) (straps : t.straps = s.straps) (station : t.station = s.station)
    (text : t.text = s.text) (timer : t.timer = s.timer) (claims : t.claims = s.claims) (floor : t.floor = s.floor)
    (queue : t.line.queue = s.line.queue) (waiting : t.line.waiting = s.line.waiting) : Ends s t :=
  .inr ⟨ok.congr straps floor (congrArg _ station), fun settled =>
    settled.congr straps (congrArg _ station) text timer claims floor queue waiting⟩

theorem Ends.floorOk {s t : State} (ends : Ends s t) : FloorOk t := by
  rcases ends with ⟨u, ok, rfl⟩ | ⟨ok, -⟩
  · exact finish_floorOk ok
  · exact ok

theorem Ends.settled {s t : State} (ends : Ends s t) (settled : Settled s) : Settled t := by
  rcases ends with ⟨u, ok, rfl⟩ | ⟨-, stays⟩
  · exact finish_settled ok
  · exact stays settled

/-- A code that changes neither the floor nor what can make work. -/
theorem plainCode_ends {f : State → State} {s : State} (ok : FloorOk s)
    (act : ∀ u, (f u).straps = u.straps ∧ (f u).station = u.station ∧ (f u).text = u.text ∧ (f u).timer = u.timer ∧
      (f u).claims = u.claims ∧ (f u).floor = u.floor ∧ (f u).line = u.line) : Ends s (plainCode f s) := by
  unfold plainCode
  split
  · exact .same ok
  · obtain ⟨straps, station, text, timer, claims, floor, line⟩ := act (closeCommand s)
    exact .quiet ok (by simp [straps]) (by simp [station]) (by simp [text]) (by simp [timer]) (by simp [claims])
      (by simp [floor]) (by simp [line]) (by simp [line])

theorem closeCommand_floorOk {s : State} (ok : FloorOk s) : FloorOk (closeCommand s) :=
  ok.congr (by simp) (by simp) (by simp)

theorem actCode_ends {f : State → State} {s : State} (ok : FloorOk s) (act : ∀ u, FloorOk u → FloorOk (f u)) :
    Ends s (actCode f s) := by
  unfold actCode
  split
  · exact .same ok
  · exact .finish (act _ (closeCommand_floorOk ok))

theorem hear_ends {sender : Nat} {k : Packet} {f : State → State} {s : State} (ok : FloorOk s)
    (deliver : ∀ u, sender ≠ u.own → FloorOk u → FloorOk (f u)) : Ends s (finish (hear sender k f s)) :=
  .finish (hear_floorOk deliver ok)

theorem execPaceTerminator_ends {s : State} (ok : FloorOk s) : Answers (Ends s) (execPaceTerminator s) :=
  .ite (fun _ => .next (.same ok)) fun _ =>
    .next (.quiet ok (by simp) (by simp) (by simp) (by simp) (by simp) (by simp) (by simp) (by simp))

theorem discardByte_ends (framingError : Bool) (b : Byte) {s : State} (ok : FloorOk s) :
    Ends s (discardByte framingError b s) := by
  unfold discardByte
  split <;> exact .quiet ok (by simp) (by simp) (by simp) (by simp) (by simp) (by simp) (by simp) (by simp)

theorem takeCharacter_floorOk (c : Byte) {s : State} (ok : FloorOk s) : FloorOk (takeCharacter c s) := by
  unfold takeCharacter
  split
  · exact ok
  · split <;> exact ok.congr (by simp) (by simp) (by simp)

theorem enterWaiting_ends {s : State} (ok : FloorOk s) : Ends s (enterWaiting s) :=
  .inr ⟨ok.congr (by simp) (by simp) (by simp), fun settled => by rwa [enterWaiting_of_entered settled.entered]⟩

theorem execResetDrained_ends {s : State} (ok : FloorOk s) : Answers (Ends s) (execResetDrained s) := by
  refine .next (.inr ⟨floorReport_floorOk (drainAct_floorOk ok), fun settled => ?_⟩)
  have quiet := settled
  obtain ⟨-, -, -, notDrained, reported, -⟩ := settled
  rwa [drainAct, if_neg (by simp [notDrained]), floorReport_of_not_due reported]

theorem parkAct_ends {s : State} (ok : FloorOk s) : Ends s (parkAct s) := by
  refine .inr ⟨parkAct_floorOk ok, fun settled => ?_⟩
  have quiet := settled
  obtain ⟨-, -, park, -⟩ := settled
  rwa [parkAct, if_neg (by simp [park])]

theorem powerOnState_ends (pins : StrapPins) (m : Moment) (s : State) : Ends s (powerOnState pins m s) := by
  refine .inr ⟨FloorOk.of_idle rfl rfl (fun own => by cases own) (fun q eq => by cases eq), fun _ => ?_⟩
  exact ⟨rfl, by simp [autoTakeDue, powerOnState, State.reset], rfl, rfl, rfl, .inl rfl, by rintro ⟨⟩, by rintro ⟨⟩⟩

theorem exec_ends (i : Instr) {s : State} (ok : FloorOk s) : Answers (Ends s) (exec i s) := by
  cases i with
  | powerOn pins m => exact .next (powerOnState_ends pins m s)
  | referencePulse t =>
    exact .ite (fun _ => .next (.finish (boundaryActs_floorOk t (s := pulseInstant t s) ok)))
      fun _ => .next (.quiet ok rfl rfl rfl rfl rfl rfl rfl rfl)
  | flywheelExpiry => exact .next (.finish (boundaryActs_floorOk _ (s := flywheelInstant s) ok))
  | guardWindowOpen => exact .next (.quiet ok rfl rfl rfl rfl rfl rfl rfl rfl)
  | timecodeValue h m sec f =>
    exact .ite (fun _ => .next (.quiet ok rfl rfl rfl rfl rfl rfl rfl rfl)) fun _ => .next (.same ok)
  | timecodeLost =>
    exact .next (.quiet ok (by simp) (by simp) (by simp) (by simp) (by simp) (by simp) (by simp) (by simp))
  | peerTimeSilenceExpiry =>
    exact .next (.quiet ok (by simp) (by simp) (by simp) (by simp) (by simp) (by simp) (by simp) (by simp))
  | character c =>
    exact .ite (fun _ => .next (.same ok)) fun _ => .ite (fun _ => .next (.finish (takeCharacter_floorOk c ok)))
      fun _ => .next (discardByte_ends _ c ok)
  | discardedByte framingError b => exact .ite (fun _ => .next (.same ok)) fun _ => .next (discardByte_ends _ b ok)
  | endBlock =>
    exact .next (actCode_ends ok fun u ok => by unfold endBlockAct; split <;> exact ok.congr (by simp) (by simp) (by simp))
  | speaker =>
    exact .next (actCode_ends ok fun u ok => by unfold speakerAct; split <;> exact ok.congr (by simp) (by simp) (by simp))
  | retract =>
    refine .next (actCode_ends ok fun u ok => ?_)
    unfold retractAct
    split
    · exact ok
    · exact ok
    · exact ok.mayEnd (by simp) (liveRetract_mayEnd u) (by simp)
  | scriptBegin => exact .next (plainCode_ends ok fun _ => ⟨rfl, rfl, rfl, rfl, rfl, rfl, rfl⟩)
  | scriptEnd => exact .next (plainCode_ends ok fun u => by unfold scriptEndAct; split <;> simp)
  | loopOn => exact .next (plainCode_ends ok fun _ => ⟨rfl, rfl, rfl, rfl, rfl, rfl, rfl⟩)
  | loopOff => exact .next (plainCode_ends ok fun _ => ⟨rfl, rfl, rfl, rfl, rfl, rfl, rfl⟩)
  | next => exact .next (actCode_ends ok fun u ok => ok.congr (by simp) (by simp) (by simp))
  | take => exact .next (actCode_ends ok fun _ => takeAct_floorOk)
  | yield =>
    exact .next (actCode_ends ok fun _ => FloorOk.yieldsIfLive)
  | park => exact .next (actCode_ends ok fun _ => parkCode_floorOk)
  | unpark => exact .next (actCode_ends ok fun _ => unparkCode_floorOk)
  | hold => exact .next (plainCode_ends ok fun _ => ⟨rfl, rfl, rfl, rfl, rfl, rfl, rfl⟩)
  | release => exact .next (plainCode_ends ok fun u => by unfold releaseAct; split <;> simp)
  | status => exact .next (plainCode_ends ok fun _ => ⟨rfl, rfl, rfl, rfl, rfl, rfl, rfl⟩)
  | reset =>
    exact .ite (fun _ => .next (.same ok)) fun _ => .ite
      (fun _ => .next (.quiet ok (by simp) (by simp) (by simp) (by simp) (by simp) (by simp) (by simp) (by simp)))
      fun _ => .next (.finish (enterResetting_floorOk ok))
  | paceIntroducer => exact .next (plainCode_ends ok fun _ => ⟨rfl, rfl, rfl, rfl, rfl, rfl, rfl⟩)
  | paceTerminator => exact execPaceTerminator_ends ok
  | idleClose => exact .next (.finish (ok.congr (by simp) (by simp) (by simp)))
  | yieldDeadline => exact .next (.finish (deadlineAct_floorOk ok))
  | bidWaitExpiry => exact .next (.finish (bidExpiryAct_floorOk ok))
  | peerSilent peer => exact .next (.finish (peerSilentAct_floorOk peer ok))
  | stateDue => exact .next (.inr ⟨stateDueAct_floorOk ok, stateDueAct_settled⟩)
  | mismatchCountExpiry => exact .next (.quiet ok rfl rfl rfl rfl rfl rfl rfl rfl)
  | joinWaitExpiry => exact .next (.finish (joinAct_floorOk ok))
  | resetCountExpiry => exact .next (.finish (resetCountAct_floorOk ok))
  | resetDrained => exact execResetDrained_ends ok
  | deferredPark => exact .next (parkAct_ends ok)
  | itemContactClose =>
    refine .next (.inr ⟨ok.congr ?_ ?_ ?_, contactAct_settled⟩) <;> unfold contactAct <;> (repeat' split) <;> simp
  | lineIdle t => exact .ite (fun _ => .next (.quiet ok rfl rfl rfl rfl rfl rfl rfl rfl)) fun _ => .next (.same ok)
  | transmissionStart t =>
    exact .ite (fun _ => .next (.finish (ok.congr (by simp) (by simp) (by simp)))) fun _ => .next (.same ok)
  | packetEcho => exact execPacketEcho_cases (fun q sent _ _ => .finish (echoAct_floorOk q sent ok)) (.same ok)
  | readbackMismatch =>
    exact execReadbackMismatch_cases (fun q _ => .finish (ok.mayEnd (by simp) (stopAct_mayEnd q s) (by simp))) (.same ok)
  | waitingRequestEntry => exact .next (enterWaiting_ends ok)
  | cutShortPacket => exact .next (.quiet ok rfl rfl rfl rfl rfl rfl rfl rfl)
  | discardedPacket => exact .next (.quiet ok rfl rfl rfl rfl rfl rfl rfl rfl)
  | cuePacket sender body =>
    exact .next (hear_ends ok fun u _ ok => ok.mayEnd (by simp)
      (((mapCue_mayEnd _ _ u).trans (expireCues_mayEnd _)).keep (overtakenTest_floor _)) (by simp))
  | revisePacket sender body =>
    exact .next (hear_ends ok fun u _ ok => ok.mayEnd (by simp)
      (((mapRevise_mayEnd _ _ u).trans (expireCues_mayEnd _)).keep (overtakenTest_floor _)) (by simp))
  | cutPacket sender seq off =>
    exact .next (hear_ends ok fun u _ ok => ok.mayEnd (by simp) (mapCut_mayEnd _ _ _ u) (by simp))
  | plainTake sender => exact .next (hear_ends ok fun _ => peerPlainTake_floorOk)
  | forcedTake sender => exact .next (hear_ends ok fun _ _ => forcedTakeView_floorOk sender)
  | yieldPacket sender successor => exact .next (hear_ends ok fun _ _ => yieldView_floorOk false successor)
  | itemPacket sender boundary number => exact .next (hear_ends ok fun _ _ => takeItem_floorOk false _ _)
  | statePacket sender body => exact .next (hear_ends ok fun _ => takeState_floorOk body _)
  | reportLineSent => exact .next (.quiet ok rfl rfl rfl rfl rfl rfl rfl rfl)
  | lineBusy => exact .ite (fun _ => .next (.quiet ok rfl rfl rfl rfl rfl rfl rfl rfl)) fun _ => .next (.same ok)

/-- Settles O56: every command ends in agreement, by `exec_ends`. -/
theorem floorStaysConsistent : Obligations.FloorStaysConsistent := by
  intro s t ok run
  rcases step_cases run with rfl | ⟨c, rest, -, run⟩
  · exact ok
  · exact (exec_ends c (s := { s with pending := rest }) ok t run).floorOk

/-- Settles O59: the end of an act leaves nothing due, and the acts without it make nothing due, by `exec_ends`. -/
theorem stepLeavesNothingDue : Obligations.StepLeavesNothingDue := by
  intro s t ok settled run
  rcases step_cases run with rfl | ⟨c, rest, -, run⟩
  · exact settled
  · exact (exec_ends c (s := { s with pending := rest }) ok t run).settled
      (settled.congr rfl rfl rfl rfl rfl rfl rfl rfl)

end Sys2Proof.Machine
end

section
/-! The Row Map (06): what is entered, evicted, tested for conflict, bounded and expired leaves a lawful map (R91, R96, R98,
R104). -/

namespace Sys2Proof.Machine

/-! ### Frame arithmetic -/

/-- The distance, with its residue. -/
theorem frameDist_spec {day : Nat} (pos : 0 < day) (a b : Nat) :
    (day : Int) ∣ frameDist day a b - ((b : Int) - a) ∧
      -(day : Int) ≤ 2 * frameDist day a b ∧ 2 * frameDist day a b < day := by
  have nonneg := Int.emod_nonneg ((b : Int) - a) (b := day) (by omega)
  have below := Int.emod_lt_of_pos ((b : Int) - a) (b := day) (by omega)
  have whole : (day : Int) ∣ ((b : Int) - a) % day - ((b : Int) - a) := by
    rw [← Int.neg_sub]
    exact (Int.dvd_self_sub_emod).neg_right
  unfold frameDist
  dsimp only
  split
  · refine ⟨?_, by omega, by omega⟩
    have := Int.dvd_sub whole (Int.dvd_refl day)
    rwa [show ((b : Int) - a) % day - ((b : Int) - a) - day = ((b : Int) - a) % day - day - ((b : Int) - a) by ring] at this
  · exact ⟨whole, by omega, by omega⟩

/-- The distance is the only number of its range with its residue. -/
theorem frameDist_unique {day : Nat} (pos : 0 < day) {a b : Nat} {d : Int} (whole : (day : Int) ∣ d - ((b : Int) - a))
    (low : -(day : Int) ≤ 2 * d) (high : 2 * d < day) : frameDist day a b = d := by
  obtain ⟨residue, low', high'⟩ := frameDist_spec pos a b
  have both : (day : Int) ∣ frameDist day a b - d := by
    have := Int.dvd_sub residue whole
    rwa [show frameDist day a b - ((b : Int) - a) - (d - ((b : Int) - a)) = frameDist day a b - d by ring] at this
  obtain ⟨k, eq⟩ := both
  have : k = 0 := by
    rcases Int.lt_trichotomy k 0 with neg | zero | pos
    · nlinarith
    · exact zero
    · nlinarith
  subst this
  omega

theorem State.day_even (s : State) : ∃ k, s.day = 2 * k ∧ 0 < k := by
  have := s.fps_pos
  exact ⟨43200 * s.fps, by unfold State.day; ring, by omega⟩

theorem State.day_pos (s : State) : 0 < s.day := by
  obtain ⟨k, eq, pos⟩ := s.day_even
  omega

theorem mod_residue (day a : Nat) : (day : Int) ∣ ((a % day : Nat) : Int) - a := by
  rw [Int.natCast_mod, ← Int.neg_sub]
  exact (Int.dvd_self_sub_emod).neg_right

/-- The frame after n is one after it. -/
theorem frameDist_next {day n : Nat} (two : 2 ≤ day) : frameDist day ((n + 1) % day) n = -1 := by
  refine frameDist_unique (by omega) ?_ (by omega) (by omega)
  have := mod_residue day (n + 1)
  rwa [show ((-1 : Int) - ((n : Int) - ((n + 1) % day : Nat))) = (((n + 1) % day : Nat) : Int) - ((n + 1 : Nat) : Int) by
    push_cast; ring]

/-- A frame at or after n + 1 is after n. -/
theorem frameDist_after_next {day k n f : Nat} (even : day = 2 * k) (pos : 0 < k)
    (after : 0 ≤ frameDist day ((n + 1) % day) f) : frameDist day f n < 0 := by
  obtain ⟨residue, -, high⟩ := frameDist_spec (show 0 < day by omega) ((n + 1) % day) f
  have next := mod_residue day (n + 1)
  generalize frameDist day ((n + 1) % day) f = d at after residue high
  have eq : frameDist day f n = -(d + 1) := by
    refine frameDist_unique (by omega) ?_ (by omega) (by omega)
    have := Int.dvd_neg.mpr (Int.dvd_sub residue next)
    rwa [show -(d - ((f : Int) - ((n + 1) % day : Nat)) - ((((n + 1) % day : Nat) : Int) - ((n + 1 : Nat) : Int))) =
      -(d + 1) - ((n : Int) - f) by push_cast; ring] at this
  omega

/-- A bound clamped is after n where the bound held was (R96). -/
theorem clampBound_after {day k n held : Nat} (f : Nat) (even : day = 2 * k) (pos : 0 < k)
    (after : frameDist day held n < 0) : frameDist day (clampBound day n held f) n < 0 := by
  unfold clampBound
  split
  · rcases (earlierOf_spec day ((n + 1) % day) held).1 with eq | eq
    · rw [eq, frameDist_next (by omega)]
      omega
    · rwa [eq]
  · exact frameDist_after_next even pos (by omega)

/-! ### Identity and conflict -/

theorem Cue.isOf_iff {c : Cue} {owner : Nat} {seq : Byte} : c.isOf owner seq = true ↔ c.owner = owner ∧ c.seq = seq := by
  simp [Cue.isOf]

theorem Cue.same_iff {a b : Cue} : a.same b = true ↔ a.owner = b.owner ∧ a.seq = b.seq := Cue.isOf_iff

theorem Cue.same_self (a : Cue) : a.same a = true := by simp [Cue.same_iff]

theorem Cue.same_comm (a b : Cue) : a.same b = b.same a := by
  rw [Bool.eq_iff_iff, Cue.same_iff, Cue.same_iff]
  exact ⟨fun ⟨h, k⟩ => ⟨h.symm, k.symm⟩, fun ⟨h, k⟩ => ⟨h.symm, k.symm⟩⟩

theorem conflicts_comm (day : Nat) (a b : Cue) : conflicts day a b = conflicts day b a := by
  simp only [conflicts, Cue.shares, spansShare]
  rw [Bool.eq_iff_iff]
  simp only [Bool.and_eq_true]
  tauto

theorem mem_withoutCue {owner : Nat} {seq : Byte} {l : List Cue} {c : Cue} :
    c ∈ withoutCue owner seq l ↔ c ∈ l ∧ c.isOf owner seq = false := by simp [withoutCue]

theorem withoutCue_sublist (owner : Nat) (seq : Byte) (l : List Cue) : (withoutCue owner seq l).Sublist l :=
  List.filter_sublist

/-- The same cue with another off bound. -/
def Cue.Rebound (c d : Cue) : Prop := d = { c with offBound := d.offBound }

theorem Cue.Rebound.refl (c : Cue) : c.Rebound c := rfl

theorem Cue.Rebound.trans {a b c : Cue} (first : a.Rebound b) (second : b.Rebound c) : a.Rebound c := by
  unfold Cue.Rebound at *
  rw [second, first]

/-! ### Lawful maps -/

/-- No identity twice, every cue on the display rows, no row over its capacity (R91, R104). -/
structure Seated (rows : Nat) (m : List Cue) : Prop where
  distinct : m.Pairwise (fun a b => a.same b = false)
  placed : ∀ c ∈ m, (1 ≤ c.low ∧ c.low + c.count - 1 ≤ rows) ∧ (c.count = 1 ∨ c.count = 2)
  fits : ∀ row : Nat, (m.filter fun c => c.covers row).length ≤ rowCapacity

/-- No two cues conflict (R98). -/
def Apart (day : Nat) (m : List Cue) : Prop := ∀ a ∈ m, ∀ b ∈ m, a.same b = false → conflicts day a b = false

theorem spanInside_iff {s : State} {low count : Nat} :
    spanInside s low count = true ↔ 1 ≤ low ∧ low + count - 1 ≤ s.displayRows := by simp [spanInside]

/-- Of a map that holds no identity twice, two members of one identity are one. -/
theorem eq_of_same {m : List Cue} (distinct : m.Pairwise (fun a b => a.same b = false)) {a b : Cue} (ma : a ∈ m) (mb : b ∈ m)
    (same : a.same b = true) : a = b := by
  by_contra ne
  have symm : Std.Symm fun a b : Cue => a.same b = false := ⟨fun a b h => by rwa [Cue.same_comm]⟩
  have := distinct.forall ma mb ne
  simp [same] at this

theorem apart_iff {day : Nat} {m : List Cue} (distinct : m.Pairwise (fun a b => a.same b = false)) :
    m.Pairwise (fun a b => conflicts day a b = false) ↔ Apart day m := by
  constructor
  · intro apart a ma b mb other
    have symm : Std.Symm fun a b : Cue => conflicts day a b = false := ⟨fun a b h => by rwa [conflicts_comm]⟩
    exact apart.forall ma mb (by rintro rfl; simp [Cue.same_self] at other)
  · intro apart
    exact distinct.imp_of_mem fun {a b} ma mb other => apart a ma b mb other

theorem mapOk_iff {s : State} : MapOk s ↔
    (∀ c ∈ s.map, cueEnded s c = false) ∧ Seated s.displayRows s.map ∧ Apart s.day s.map := by
  constructor
  · rintro ⟨ended, distinct, placed, fits, apart⟩
    exact ⟨ended, ⟨distinct, fun c mem => ⟨spanInside_iff.mp (placed c mem).1, (placed c mem).2⟩, fits⟩,
      (apart_iff distinct).mp apart⟩
  · rintro ⟨ended, ⟨distinct, placed, fits⟩, apart⟩
    exact ⟨ended, distinct, fun c mem => ⟨spanInside_iff.mpr (placed c mem).1, (placed c mem).2⟩, fits,
      (apart_iff distinct).mpr apart⟩

theorem Seated.sublist {rows : Nat} {l m : List Cue} (seated : Seated rows m) (sub : l.Sublist m) : Seated rows l where
  distinct := seated.distinct.sublist sub
  placed c mem := seated.placed c (sub.subset mem)
  fits row := ((sub.filter _).length_le).trans (seated.fits row)

theorem Apart.subset {day : Nat} {l m : List Cue} (apart : Apart day m) (sub : ∀ c ∈ l, c ∈ m) : Apart day l :=
  fun a ma b mb => apart a (sub a ma) b (sub b mb)

theorem Seated.perm {rows : Nat} {l m : List Cue} (seated : Seated rows m) (perm : l.Perm m) : Seated rows l where
  distinct := (perm.symm.pairwise_iff (fun {a b} h => by rwa [Cue.same_comm])).mp seated.distinct
  placed c mem := seated.placed c (perm.mem_iff.mp mem)
  fits row := by
    rw [(perm.filter _).length_eq]
    exact seated.fits row

/-- A cue enters where its rows have room. -/
theorem Seated.enter {rows : Nat} {m : List Cue} {c : Cue} (seated : Seated rows m) (new : ∀ d ∈ m, d.same c = false)
    (placed : (1 ≤ c.low ∧ c.low + c.count - 1 ≤ rows) ∧ (c.count = 1 ∨ c.count = 2))
    (room : ∀ row, c.covers row = true → (m.filter fun d => d.covers row).length < rowCapacity) : Seated rows (c :: m) where
  distinct := List.pairwise_cons.mpr ⟨fun d mem => by rw [Cue.same_comm]; exact new d mem, seated.distinct⟩
  placed d mem := by
    rcases List.mem_cons.mp mem with rfl | mem
    · exact placed
    · exact seated.placed d mem
  fits row := by
    rw [List.filter_cons]
    split
    · exact room row ‹_›
    · exact seated.fits row

theorem Cue.Rebound.same {a b c d : Cue} (hab : a.Rebound b) (hcd : c.Rebound d) : b.same d = a.same c := by
  rw [hab, hcd]
  rfl

theorem Cue.Rebound.conflicts {day : Nat} {a b c d : Cue} (hab : a.Rebound b) (hcd : c.Rebound d) :
    Machine.conflicts day b d = Machine.conflicts day a c := by
  rw [hab, hcd]
  rfl

theorem Cue.Rebound.covers {a b : Cue} (hab : a.Rebound b) (row : Nat) : b.covers row = a.covers row := by
  rw [hab]
  rfl

/-- Off bounds are not in the reach of these laws. -/
theorem Seated.map {rows : Nat} {m : List Cue} {f : Cue → Cue} (seated : Seated rows m)
    (rebound : ∀ c ∈ m, c.Rebound (f c)) : Seated rows (m.map f) where
  distinct := by
    refine List.pairwise_map.mpr (seated.distinct.imp_of_mem fun {a b} ma mb other => ?_)
    rwa [(rebound a ma).same (rebound b mb)]
  placed d mem := by
    obtain ⟨c, known, rfl⟩ := List.mem_map.mp mem
    have placed := seated.placed c known
    rw [rebound c known]
    exact placed
  fits row := by
    rw [List.filter_map, List.length_map, List.filter_congr (q := fun c => c.covers row)]
    · exact seated.fits row
    · exact fun c mem => (rebound c mem).covers row

theorem Apart.map {day : Nat} {m : List Cue} {f : Cue → Cue} (apart : Apart day m) (rebound : ∀ c ∈ m, c.Rebound (f c)) :
    Apart day (m.map f) := by
  intro a ma b mb other
  obtain ⟨c, mc, rfl⟩ := List.mem_map.mp ma
  obtain ⟨d, md, rfl⟩ := List.mem_map.mp mb
  rw [(rebound c mc).same (rebound d md)] at other
  rw [(rebound c mc).conflicts (rebound d md)]
  exact apart c mc d md other

end Sys2Proof.Machine
end

section
/-! The Row Map's operations on a lawful map. -/

namespace Sys2Proof.Machine

/-! ### Eviction and entry (R90, R92) -/

theorem pickEvicted_mem {day n : Nat} {l : List Cue} {v : Cue} (picked : pickEvicted day n l = some v) : v ∈ l := by
  induction l generalizing v with
  | nil => cases picked
  | cons c l ih =>
    unfold pickEvicted at picked
    split at picked
    · split at picked
      · cases picked
        exact .tail _ (ih ‹_›)
      · cases picked
        exact .head _
    · cases picked
      exact .head _

theorem pickEvicted_isSome {day n : Nat} {c : Cue} {l : List Cue} (mem : c ∈ l) : ∃ v, pickEvicted day n l = some v := by
  cases l with
  | nil => cases mem
  | cons d l =>
    unfold pickEvicted
    split
    · split <;> exact ⟨_, rfl⟩
    · exact ⟨_, rfl⟩

/-- What makes room on a row: nothing, or one cue of the row evicted whole. -/
theorem makeRowRoom_map (inHand : Cue → Bool) (row : Nat) (s : State) :
    (rowEntries s row).length < rowCapacity ∧ (makeRowRoom inHand row s).map = s.map ∨
    rowCapacity ≤ (rowEntries s row).length ∧
      ((∀ d ∈ rowEntries s row, inHand d = true) ∧ (makeRowRoom inHand row s).map = s.map ∨
      ∃ v ∈ rowEntries s row, inHand v = false ∧ (makeRowRoom inHand row s).map = withoutCue v.owner v.seq s.map) := by
  unfold makeRowRoom
  split
  · rename_i full
    refine .inr ⟨full, ?_⟩
    split
    · rename_i v picked
      have mem := pickEvicted_mem picked
      simp only [List.mem_filter, Bool.not_eq_true'] at mem
      exact .inr ⟨v, mem.1, mem.2, by simp⟩
    · rename_i none
      refine .inl ⟨fun d mem => ?_, rfl⟩
      by_contra other
      obtain ⟨v, some⟩ := pickEvicted_isSome (day := s.day) (n := s.n) (c := d)
        (l := (rowEntries s row).filter fun c => !inHand c) (by simp [mem, other])
      simp [some] at none
  · exact .inl ⟨by omega, rfl⟩

theorem makeRowRoom_sublist (inHand : Cue → Bool) (row : Nat) (s : State) : (makeRowRoom inHand row s).map.Sublist s.map := by
  rcases makeRowRoom_map inHand row s with ⟨-, same⟩ | ⟨-, ⟨-, same⟩ | ⟨v, -, -, left⟩⟩
  · rw [same]
  · rw [same]
  · rw [left]
    exact withoutCue_sublist _ _ _

/-- Room is made on a row that holds no more than it may, and a cue that is no candidate only on few places. -/
theorem makeRowRoom_room {inHand : Cue → Bool} {row : Nat} {s : State} (fits : (rowEntries s row).length ≤ rowCapacity)
    (few : ((rowEntries s row).filter inHand).length < rowCapacity) :
    ((makeRowRoom inHand row s).map.filter fun c => c.covers row).length < rowCapacity := by
  rcases makeRowRoom_map inHand row s with ⟨room, same⟩ | ⟨full, ⟨all, -⟩ | ⟨v, mem, -, left⟩⟩
  · rwa [same]
  · rw [List.filter_eq_self.mpr all] at few
    omega
  · have fewer : ((rowEntries s row).filter fun c => !c.isOf v.owner v.seq).length < (rowEntries s row).length :=
      List.length_filter_lt_length_iff_exists.mpr ⟨v, mem, by simp [Cue.isOf]⟩
    rw [left, withoutCue, List.filter_filter]
    simp only [rowEntries, List.filter_filter] at fewer fits ⊢
    simp only [Bool.and_comm] at fewer ⊢
    omega

theorem insertCue_perm (day n : Nat) (c : Cue) (l : List Cue) : (insertCue day n c l).Perm (c :: l) := by
  induction l with
  | nil => exact .refl _
  | cons d l ih =>
    unfold insertCue
    split
    · exact .refl _
    · exact (ih.cons d).trans (.swap c d l)

/-- The state with room made for a cue. -/
def roomMade (inHand : Cue → Bool) (c : Cue) (s : State) : State :=
  if c.count = 2 then makeRowRoom inHand (c.low + 1) (makeRowRoom inHand c.low s) else makeRowRoom inHand c.low s

theorem makeEntries_eq (inHand : Cue → Bool) (c : Cue) (s : State) :
    makeEntries inHand c s =
      (roomMade inHand c s).setMap (insertCue (roomMade inHand c s).day (roomMade inHand c s).n c (roomMade inHand c s).map) :=
  rfl

theorem roomMade_sublist (inHand : Cue → Bool) (c : Cue) (s : State) : (roomMade inHand c s).map.Sublist s.map := by
  unfold roomMade
  split
  · exact (makeRowRoom_sublist _ _ _).trans (makeRowRoom_sublist _ _ _)
  · exact makeRowRoom_sublist _ _ _

theorem makeEntries_perm (inHand : Cue → Bool) (c : Cue) (s : State) :
    (makeEntries inHand c s).map.Perm (c :: (roomMade inHand c s).map) := by
  rw [makeEntries_eq]
  exact insertCue_perm _ _ _ _

/-- The rows of a cue by its count. -/
theorem covers_iff {c : Cue} (count : c.count = 1 ∨ c.count = 2) (row : Nat) :
    c.covers row = true ↔ row = c.low ∨ (c.count = 2 ∧ row = c.low + 1) := by
  simp only [Cue.covers, Bool.and_eq_true, decide_eq_true_eq]
  rcases count with one | two <;> omega

/-- Room is made on each row of a cue. -/
theorem roomMade_room {rows : Nat} {inHand : Cue → Bool} {c : Cue} {s : State} (seated : Seated rows s.map)
    (count : c.count = 1 ∨ c.count = 2) (few : (s.map.filter inHand).length < rowCapacity) (row : Nat)
    (covers : c.covers row = true) : ((roomMade inHand c s).map.filter fun d => d.covers row).length < rowCapacity := by
  have handful (u : State) (sub : u.map.Sublist s.map) (r : Nat) : ((rowEntries u r).filter inHand).length < rowCapacity := by
    have : ((rowEntries u r).filter inHand).Sublist (s.map.filter inHand) := (List.filter_sublist.trans sub).filter _
    exact (this.length_le).trans_lt few
  have low : ((makeRowRoom inHand c.low s).map.filter fun d => d.covers c.low).length < rowCapacity :=
    makeRowRoom_room (seated.fits _) (handful s (.refl _) _)
  have sub := makeRowRoom_sublist inHand c.low s
  unfold roomMade
  rcases (covers_iff count row).mp covers with rfl | ⟨two, rfl⟩
  · split
    · exact (((makeRowRoom_sublist _ _ _).filter _).length_le).trans_lt low
    · exact low
  · rw [if_pos two]
    exact makeRowRoom_room ((seated.sublist sub).fits _) (handful _ sub _)

theorem makeEntries_seated {rows : Nat} {inHand : Cue → Bool} {c : Cue} {s : State} (seated : Seated rows s.map)
    (new : ∀ d ∈ s.map, d.same c = false)
    (placed : (1 ≤ c.low ∧ c.low + c.count - 1 ≤ rows) ∧ (c.count = 1 ∨ c.count = 2))
    (few : (s.map.filter inHand).length < rowCapacity) : Seated rows (makeEntries inHand c s).map := by
  have sub := roomMade_sublist inHand c s
  exact ((seated.sublist sub).enter (fun d mem => new d (sub.subset mem)) placed
    (roomMade_room seated placed.2 few)).perm (makeEntries_perm inHand c s)

theorem mem_makeEntries {inHand : Cue → Bool} {c d : Cue} {s : State} (mem : d ∈ (makeEntries inHand c s).map) :
    d = c ∨ d ∈ s.map := by
  rcases List.mem_cons.mp ((makeEntries_perm inHand c s).mem_iff.mp mem) with rfl | mem
  · exact .inl rfl
  · exact .inr ((roomMade_sublist inHand c s).subset mem)

theorem self_mem_makeEntries (inHand : Cue → Bool) (c : Cue) (s : State) : c ∈ (makeEntries inHand c s).map :=
  (makeEntries_perm inHand c s).mem_iff.mpr (.head _)

/-! ### Conflict (R98) -/

theorem conflictTest_map (c : Cue) (s : State) : (conflictTest c s).map =
    if ((s.map.filter fun d => !d.same c && conflicts s.day d c).any fun d => preferred s.day d c) = true then
      withoutCue c.owner c.seq s.map
    else s.map.filter fun d => d.same c || !conflicts s.day d c := by
  unfold conflictTest
  dsimp only
  split <;> simp

theorem conflictTest_sublist (c : Cue) (s : State) : (conflictTest c s).map.Sublist s.map := by
  rw [conflictTest_map]
  split
  · exact withoutCue_sublist _ _ _
  · exact List.filter_sublist

/-- After its conflict test a cue conflicts with none, or has gone. -/
theorem conflictTest_apart {c : Cue} {s : State} (distinct : s.map.Pairwise (fun a b => a.same b = false)) (mem : c ∈ s.map)
    {a b : Cue} (ma : a ∈ (conflictTest c s).map) (mb : b ∈ (conflictTest c s).map) (same : a.same c = true)
    (other : a.same b = false) : conflicts s.day a b = false := by
  have one : a = c := eq_of_same distinct ((conflictTest_sublist c s).subset ma) mem same
  subst one
  rw [conflictTest_map] at ma mb
  split at ma
  · simp [withoutCue, Cue.isOf] at ma
  · rw [if_neg ‹_›] at mb
    simp only [List.mem_filter, Bool.or_eq_true, Bool.not_eq_true'] at mb
    rw [conflicts_comm]
    refine mb.2.resolve_left ?_
    rw [Cue.same_comm, other]
    exact Bool.false_ne_true

/-! ### Displacement (R95) -/

theorem boundEarlier_rebound (day n : Nat) (c d : Cue) : d.Rebound (boundEarlier day n c d) := by
  unfold boundEarlier
  dsimp only
  split <;> rfl

theorem boundByLater_rebound (day n : Nat) (c d : Cue) : c.Rebound (boundByLater day n c d) := by
  unfold boundByLater
  dsimp only
  split <;> rfl

theorem foldl_boundByLater_rebound (day n : Nat) (l : List Cue) (c : Cue) : c.Rebound (l.foldl (boundByLater day n) c) := by
  induction l generalizing c with
  | nil => rfl
  | cons d l ih => exact (boundByLater_rebound day n c d).trans (ih _)

theorem findCue_mem {owner : Nat} {seq : Byte} {s : State} {c : Cue} (found : findCue owner seq s = some c) :
    c ∈ s.map ∧ c.owner = owner ∧ c.seq = seq :=
  ⟨List.mem_of_find?_eq_some found, Cue.isOf_iff.mp (List.find?_some (p := fun c : Cue => c.isOf owner seq) found)⟩

/-- A cue that keeps its entries moves off bounds only. -/
theorem boundNeighbours_map (c : Cue) {s : State} (distinct : s.map.Pairwise (fun a b => a.same b = false)) :
    ∃ f, (boundNeighbours c s).map = s.map.map f ∧ ∀ d ∈ s.map, d.Rebound (f d) := by
  unfold boundNeighbours
  split
  · rename_i e found
    obtain ⟨known, -⟩ := findCue_mem found
    refine ⟨_, rfl, fun d mem => ?_⟩
    split
    · rename_i same
      rw [eq_of_same distinct mem known same]
      exact foldl_boundByLater_rebound _ _ _ _
    · exact boundEarlier_rebound _ _ _ _
  · exact ⟨id, by simp, fun d _ => .refl d⟩

theorem boundAll_map (l : List Cue) {s : State} {rows : Nat} (seated : Seated rows s.map) :
    ∃ f, (boundAll l s).map = s.map.map f ∧ ∀ d ∈ s.map, d.Rebound (f d) := by
  induction l generalizing s with
  | nil => exact ⟨id, by simp [boundAll], fun d _ => .refl d⟩
  | cons c l ih =>
    obtain ⟨f, eq, rebound⟩ := boundNeighbours_map c seated.distinct
    obtain ⟨g, eq', rebound'⟩ := ih (s := boundNeighbours c s) (eq ▸ seated.map rebound)
    refine ⟨g ∘ f, ?_, fun d mem => (rebound d mem).trans (rebound' _ ?_)⟩
    · rw [boundAll, eq', eq, List.map_map]
    · rw [eq]
      exact List.mem_map_of_mem mem

/-! ### Expiry (R104) -/

theorem cuesGone_map (why : MapEnd) (l : List Cue) (s : State) : (cuesGone why l s).map = s.map := by simp

theorem expireCues_map (s : State) : (expireCues s).map = s.map.filter fun c => !cueEnded s c := by
  rw [expireCues, cuesGone_map]
  rfl

theorem showAndExpire_map (step : Bool) (s : State) : (showAndExpire step s).map = s.map.filter fun c => !cueEnded s c := by
  unfold showAndExpire
  dsimp only
  rw [cuesGone_map]
  simp

theorem cueEnded_congr {s t : State} (straps : t.straps = s.straps) (n : t.n = s.n) (c : Cue) :
    cueEnded t c = cueEnded s c := by
  simp only [cueEnded, n, State.day_congr straps]

/-! ### Packets -/

theorem mapCue_eq (sender : Nat) (b : CueBody) (s : State) : mapCue sender b s =
    boundNeighbours (cueOf sender b) (conflictTest (cueOf sender b) (makeEntries (fun d => d.same (cueOf sender b))
      (cueOf sender b) (s.setMap (withoutCue sender b.seq s.map)))) := rfl

/-- The rows of a cue in a packet that fits (R144, R145). -/
def Placed (rows low count : Nat) : Prop := (1 ≤ low ∧ low + count - 1 ≤ rows) ∧ (count = 1 ∨ count = 2)

theorem conflictTest_day (c : Cue) (s : State) : (conflictTest c s).day = s.day := State.day_congr (by simp)

theorem makeEntries_day (inHand : Cue → Bool) (c : Cue) (s : State) : (makeEntries inHand c s).day = s.day :=
  State.day_congr (by simp)

theorem mapCue_lawful {sender : Nat} {b : CueBody} {s : State} {rows : Nat} (placed : Placed rows b.low b.count)
    (seated : Seated rows s.map) (apart : Apart s.day s.map) :
    Seated rows (mapCue sender b s).map ∧ Apart s.day (mapCue sender b s).map := by
  rw [mapCue_eq]
  generalize eqc : cueOf sender b = c
  have cplaced : (1 ≤ c.low ∧ c.low + c.count - 1 ≤ rows) ∧ (c.count = 1 ∨ c.count = 2) := by
    subst eqc
    exact placed
  have base : Seated rows (withoutCue sender b.seq s.map) := seated.sublist (withoutCue_sublist _ _ _)
  have new (d : Cue) (mem : d ∈ withoutCue sender b.seq s.map) : d.same c = false := by
    subst eqc
    exact (mem_withoutCue.mp mem).2
  have entered : Seated rows (makeEntries (fun d => d.same c) c (s.setMap (withoutCue sender b.seq s.map))).map := by
    refine makeEntries_seated (s := s.setMap _) base new cplaced ?_
    have none : (withoutCue sender b.seq s.map).filter (fun d => d.same c) = [] :=
      List.filter_eq_nil_iff.mpr fun d mem => by simp [new d mem]
    simp [none, rowCapacity]
  have self := self_mem_makeEntries (fun d => d.same c) c (s.setMap (withoutCue sender b.seq s.map))
  have members (d : Cue) (mem : d ∈ (makeEntries (fun d => d.same c) c (s.setMap (withoutCue sender b.seq s.map))).map) :
      d = c ∨ d ∈ s.map := (mem_makeEntries mem).imp_right fun mem => (mem_withoutCue.mp mem).1
  have day := makeEntries_day (fun d => d.same c) c (s.setMap (withoutCue sender b.seq s.map))
  generalize makeEntries (fun d => d.same c) c (s.setMap (withoutCue sender b.seq s.map)) = u at entered self members day
  have day : u.day = s.day := day
  have sub := conflictTest_sublist c u
  have tested : Apart s.day (conflictTest c u).map := by
    intro a ma e me other
    rw [← day]
    by_cases same : a.same c = true
    · exact conflictTest_apart entered.distinct self ma me same other
    · by_cases same' : e.same c = true
      · rw [conflicts_comm]
        exact conflictTest_apart entered.distinct self me ma same' (by rwa [Cue.same_comm])
      · have known (d : Cue) (mem : d ∈ (conflictTest c u).map) (ne : ¬ d.same c = true) : d ∈ s.map := by
          refine (members d (sub.subset mem)).resolve_left ?_
          rintro rfl
          exact ne (Cue.same_self d)
        rw [day]
        exact apart a (known a ma same) e (known e me same') other
  have seated' := entered.sublist sub
  obtain ⟨f, eq, rebound⟩ := boundNeighbours_map c seated'.distinct
  rw [eq]
  exact ⟨seated'.map rebound, tested.map rebound⟩

theorem mapRevise_lawful {sender : Nat} {b : CueBody} {s : State} {rows : Nat} (placed : Placed rows b.low b.count)
    (seated : Seated rows s.map) (apart : Apart s.day s.map) :
    Seated rows (mapRevise sender b s).map ∧ Apart s.day (mapRevise sender b s).map := by
  unfold mapRevise
  split
  · exact ⟨seated, apart⟩
  · exact mapCue_lawful placed seated apart

end Sys2Proof.Machine
end

section
/-! The Row Map's replacement by a STATE (R100), and the law of the map through every command (R91, R96, R98, R104). -/

namespace Sys2Proof.Machine

/-! ### The cues of a STATE (R100) -/

/-- The cues in hand on a map that holds no identity twice are no more than the packet's. -/
theorem inHand_length {m l : List Cue} (distinct : m.Pairwise (fun a b => a.same b = false)) :
    (m.filter fun d => l.any fun c => d.same c).length ≤ l.length := by
  have identities : ((m.filter fun d => l.any fun c => d.same c).map fun d => (d.owner, d.seq)).Nodup := by
    refine List.pairwise_map.mpr ((distinct.sublist List.filter_sublist).imp fun {a b} other eq => ?_)
    simp only [Prod.mk.injEq] at eq
    simp [Cue.same_iff.mpr eq] at other
  have listed : ((m.filter fun d => l.any fun c => d.same c).map fun d => (d.owner, d.seq)) ⊆
      l.map fun d => (d.owner, d.seq) := by
    intro x mem
    obtain ⟨d, kept, rfl⟩ := List.mem_map.mp mem
    simp only [List.mem_filter, List.any_eq_true] at kept
    obtain ⟨-, c, known, same⟩ := kept
    obtain ⟨owner, seq⟩ := Cue.same_iff.mp same
    exact List.mem_map.mpr ⟨c, known, by rw [owner, seq]⟩
  simpa using (identities.subperm listed).length_le

theorem makeAllEntries_seated {rows : Nat} {inHand : List Cue} {l : List Cue} {s : State}
    (placed : ∀ c ∈ l, Placed rows c.low c.count) (few : inHand.length < rowCapacity) (seated : Seated rows s.map) :
    Seated rows (makeAllEntries (fun d => inHand.any fun c => d.same c) l s).map := by
  induction l generalizing s with
  | nil => exact seated
  | cons c l ih =>
    have base : Seated rows (withoutCue c.owner c.seq s.map) := seated.sublist (withoutCue_sublist _ _ _)
    refine ih (fun d mem => placed d (.tail _ mem)) (makeEntries_seated (s := s.setMap _) base (fun d mem => ?_)
      (placed c (.head _)) ((inHand_length base.distinct).trans_lt few))
    exact (mem_withoutCue.mp mem).2

theorem mem_makeAllEntries {inHand : Cue → Bool} {l : List Cue} {s : State} {d : Cue}
    (mem : d ∈ (makeAllEntries inHand l s).map) : d ∈ l ∨ d ∈ s.map := by
  induction l generalizing s with
  | nil => exact .inr mem
  | cons c l ih =>
    rcases ih mem with listed | mem
    · exact .inl (.tail _ listed)
    · rcases mem_makeEntries mem with rfl | mem
      · exact .inl (.head _)
      · exact .inr (mem_withoutCue.mp mem).1

theorem testAll_sublist (l : List Cue) (s : State) : (testAll l s).map.Sublist s.map := by
  induction l generalizing s with
  | nil => exact .refl _
  | cons c l ih =>
    unfold testAll
    split
    · exact (ih _).trans (conflictTest_sublist _ _)
    · exact ih _

/-- A listed cue that keeps its entries conflicts with none (R98). -/
theorem testAll_apart {l : List Cue} {s : State} (distinct : s.map.Pairwise (fun a b => a.same b = false)) {c : Cue}
    (listed : c ∈ l) {a b : Cue} (ma : a ∈ (testAll l s).map) (mb : b ∈ (testAll l s).map) (same : a.same c = true)
    (other : a.same b = false) : conflicts s.day a b = false := by
  induction l generalizing s with
  | nil => cases listed
  | cons d l ih =>
    unfold testAll at ma mb
    rcases List.mem_cons.mp listed with rfl | listed
    · split at ma
      · rename_i e found
        obtain ⟨known, owner, seq⟩ := findCue_mem found
        have sub := testAll_sublist l (conflictTest e s)
        rw [found] at mb
        obtain ⟨owner', seq'⟩ := Cue.same_iff.mp same
        exact conflictTest_apart distinct known (sub.subset ma) (sub.subset mb)
          (Cue.same_iff.mpr ⟨owner'.trans owner.symm, seq'.trans seq.symm⟩) other
      · rename_i none
        have known := (testAll_sublist l s).subset ma
        have := List.find?_eq_none.mp none a known
        simp [Cue.isOf_iff.mpr (Cue.same_iff.mp same)] at this
    · split at ma
      · rename_i e found
        rw [found] at mb
        rw [← conflictTest_day e s]
        exact ih (distinct.sublist (conflictTest_sublist e s)) listed ma mb
      · rename_i none
        rw [none] at mb
        exact ih distinct listed ma mb

theorem mapState_eq (sender : Nat) (l : List StateClaim) (s : State) : mapState sender l s =
    boundAll (listedCues sender l s) (testAll (listedCues sender l s)
      (makeAllEntries (fun d => (listedCues sender l s).any fun c => d.same c) (listedCues sender l s)
        (s.setMap (s.map.filter fun c => !decide (c.owner = sender))))) := rfl

theorem mem_listedCues {sender : Nat} {l : List StateClaim} {s : State} {c : Cue} (mem : c ∈ listedCues sender l s) :
    c.owner = sender ∧ cueEnded s c = false ∧ ∃ k ∈ l, c = listedCue sender (findCue sender k.seq s) s.day k := by
  simp only [listedCues, List.mem_filter, List.mem_map, Bool.not_eq_true'] at mem
  obtain ⟨⟨k, known, rfl⟩, after⟩ := mem
  exact ⟨rfl, after, k, known, rfl⟩

theorem makeAllEntries_day (inHand : Cue → Bool) (l : List Cue) (s : State) : (makeAllEntries inHand l s).day = s.day :=
  State.day_congr (by simp)

theorem mapState_lawful {sender : Nat} {l : List StateClaim} {s : State} {rows : Nat}
    (placed : ∀ k ∈ l, Placed rows k.low k.count) (four : l.length ≤ 4) (seated : Seated rows s.map)
    (apart : Apart s.day s.map) : Seated rows (mapState sender l s).map ∧ Apart s.day (mapState sender l s).map := by
  rw [mapState_eq]
  have owners (c : Cue) (mem : c ∈ listedCues sender l s) : c.owner = sender := (mem_listedCues mem).1
  have few : (listedCues sender l s).length < rowCapacity := by
    have : (listedCues sender l s).length ≤ l.length := (List.length_filter_le ..).trans (by simp)
    have : rowCapacity = 8 := rfl
    omega
  have cplaced (c : Cue) (mem : c ∈ listedCues sender l s) : Placed rows c.low c.count := by
    obtain ⟨-, -, k, known, rfl⟩ := mem_listedCues mem
    exact placed k known
  generalize listedCues sender l s = cues at owners few cplaced
  have entered : Seated rows (makeAllEntries (fun d => cues.any fun c => d.same c) cues
      (s.setMap (s.map.filter fun c => !decide (c.owner = sender)))).map :=
    makeAllEntries_seated (s := s.setMap _) cplaced few (seated.sublist List.filter_sublist)
  have members (d : Cue) (mem : d ∈ (makeAllEntries (fun d => cues.any fun c => d.same c) cues
      (s.setMap (s.map.filter fun c => !decide (c.owner = sender)))).map) : d ∈ cues ∨ d ∈ s.map :=
    (mem_makeAllEntries mem).imp_right fun mem => (List.mem_filter.mp mem).1
  have day : (makeAllEntries (fun d => cues.any fun c => d.same c) cues
      (s.setMap (s.map.filter fun c => !decide (c.owner = sender)))).day = s.day := makeAllEntries_day _ _ _
  generalize makeAllEntries (fun d => cues.any fun c => d.same c) cues
    (s.setMap (s.map.filter fun c => !decide (c.owner = sender))) = u at entered members day
  have sub := testAll_sublist cues u
  have tested : Apart s.day (testAll cues u).map := by
    intro a ma b mb other
    rcases members a (sub.subset ma) with listed | old
    · rw [← day]
      exact testAll_apart entered.distinct listed ma mb (Cue.same_self a) other
    · rcases members b (sub.subset mb) with listed | old'
      · rw [← day, conflicts_comm]
        exact testAll_apart entered.distinct listed mb ma (Cue.same_self b) (by rwa [Cue.same_comm])
      · exact apart a old b old' other
  have seated' := entered.sublist sub
  obtain ⟨f, eq, rebound⟩ := boundAll_map cues seated'
  rw [eq]
  exact ⟨seated'.map rebound, tested.map rebound⟩

/-! ### The map through the operations -/

/-- The lawful part of the map, that no frame number is read for. -/
def MapLaws (s : State) : Prop := Seated s.displayRows s.map ∧ Apart s.day s.map

theorem MapOk.laws {s : State} (ok : MapOk s) : MapLaws s := (mapOk_iff.mp ok).2

theorem State.displayRows_congr {s t : State} (straps : t.straps = s.straps) : t.displayRows = s.displayRows := by
  simp only [State.displayRows, straps]

theorem MapLaws.sublist {s t : State} (laws : MapLaws s) (straps : t.straps = s.straps) (sub : t.map.Sublist s.map) :
    MapLaws t := by
  unfold MapLaws
  rw [State.displayRows_congr straps, State.day_congr straps]
  exact ⟨laws.1.sublist sub, laws.2.subset sub.subset⟩

theorem MapLaws.congr {s t : State} (laws : MapLaws s) (straps : t.straps = s.straps) (map : t.map = s.map) : MapLaws t :=
  laws.sublist straps (by rw [map])

theorem MapOk.congr {s t : State} (ok : MapOk s) (straps : t.straps = s.straps) (n : t.n = s.n) (map : t.map = s.map) :
    MapOk t := by
  refine mapOk_iff.mpr ⟨fun c mem => ?_, ok.laws.congr straps map⟩
  rw [cueEnded_congr straps n]
  exact (mapOk_iff.mp ok).1 c (map ▸ mem)

/-- Expiry leaves no ended cue, whatever the frame number was. -/
theorem expireCues_mapOk {s : State} (laws : MapLaws s) : MapOk (expireCues s) := by
  have map := expireCues_map s
  refine mapOk_iff.mpr ⟨fun c mem => ?_, laws.sublist (by simp) (by rw [map]; exact List.filter_sublist)⟩
  rw [map, List.mem_filter] at mem
  rw [cueEnded_congr (s := s) (by simp) (by simp [State.n])]
  simpa using mem.2

theorem showAndExpire_mapOk (step : Bool) {s : State} (laws : MapLaws s) : MapOk (showAndExpire step s) := by
  have map := showAndExpire_map step s
  refine mapOk_iff.mpr ⟨fun c mem => ?_, laws.sublist (by simp) (by rw [map]; exact List.filter_sublist)⟩
  rw [map, List.mem_filter] at mem
  rw [cueEnded_congr (s := s) (by simp) (by simp [State.n])]
  simpa using mem.2

theorem mapCue_laws {sender : Nat} {b : CueBody} {s : State} (placed : Placed s.displayRows b.low b.count) (laws : MapLaws s) :
    MapLaws (mapCue sender b s) := by
  unfold MapLaws
  rw [State.displayRows_congr (s := s) (by simp), State.day_congr (s := s) (by simp)]
  exact mapCue_lawful placed laws.1 laws.2

theorem mapRevise_laws {sender : Nat} {b : CueBody} {s : State} (placed : Placed s.displayRows b.low b.count)
    (laws : MapLaws s) : MapLaws (mapRevise sender b s) := by
  unfold MapLaws
  rw [State.displayRows_congr (s := s) (by simp), State.day_congr (s := s) (by simp)]
  exact mapRevise_lawful placed laws.1 laws.2

theorem mapState_laws {sender : Nat} {l : List StateClaim} {s : State} (placed : ∀ k ∈ l, Placed s.displayRows k.low k.count)
    (four : l.length ≤ 4) (laws : MapLaws s) : MapLaws (mapState sender l s) := by
  unfold MapLaws
  rw [State.displayRows_congr (s := s) (by simp), State.day_congr (s := s) (by simp)]
  exact mapState_lawful placed four laws.1 laws.2

/-- A map whose off bounds alone have moved, none of them to n or before. -/
theorem MapOk.rebound {s : State} {f : Cue → Cue} (ok : MapOk s) (rebound : ∀ c ∈ s.map, c.Rebound (f c))
    (after : ∀ c ∈ s.map, cueEnded s c = false → cueEnded s (f c) = false) : MapOk (s.setMap (s.map.map f)) := by
  obtain ⟨ended, seated, apart⟩ := mapOk_iff.mp ok
  refine mapOk_iff.mpr ⟨fun c mem => ?_, seated.map rebound, apart.map rebound⟩
  obtain ⟨d, known, rfl⟩ := List.mem_map.mp mem
  exact after d known (ended d known)

theorem clampBound_notEnded {s : State} {c : Cue} (f : Frame) (after : cueEnded s c = false) :
    cueEnded s { c with offBound := clampBound s.day s.n c.offBound f } = false := by
  obtain ⟨k, even, pos⟩ := s.day_even
  simp only [cueEnded, atOrBefore, decide_eq_false_iff_not, Int.not_le] at after ⊢
  exact clampBound_after f even pos after

theorem mapCut_mapOk (sender : Nat) (seq : Byte) (off : Frame) {s : State} (ok : MapOk s) : MapOk (mapCut sender seq off s) := by
  unfold mapCut
  split
  · split
    · rename_i c found _
      have left : MapOk (s.setMap (withoutCue sender seq s.map)) := by
        obtain ⟨ended, -⟩ := mapOk_iff.mp ok
        exact mapOk_iff.mpr ⟨fun d mem => ended d (mem_withoutCue.mp mem).1,
          ok.laws.sublist (t := s.setMap _) rfl (withoutCue_sublist _ _ _)⟩
      exact left.congr (by simp) (by simp [State.n]) (by simp)
    · refine ok.rebound (fun d _ => ?_) fun d _ after => ?_
      · split <;> rfl
      · split
        · exact clampBound_notEnded _ after
        · exact after
  · exact ok

theorem itemCut_mapOk (b : Frame) {s : State} (ok : MapOk s) : MapOk (itemCut b s) := by
  refine ok.rebound (fun d _ => ?_) fun d _ after => ?_
  · split <;> rfl
  · split
    · exact clampBound_notEnded b after
    · exact after

theorem endResetting_mapOk (s : State) : MapOk (endResetting s) := by
  refine mapOk_iff.mpr ⟨by simp [endResetting], ⟨?_, ?_, ?_⟩, ?_⟩ <;> simp [endResetting, Apart]

theorem drainAct_mapOk {s : State} (ok : MapOk s) : MapOk (drainAct s) := by
  unfold drainAct
  split
  · exact endResetting_mapOk s
  · exact ok

theorem resetCountAct_mapOk {s : State} (ok : MapOk s) : MapOk (resetCountAct s) := by
  unfold resetCountAct
  split
  · exact endResetting_mapOk s
  · exact ok

theorem settle_mapOk {s : State} (ok : MapOk s) : MapOk (settle s) :=
  drainAct_mapOk (ok.congr (by simp) (by simp [State.n]) (by simp))

theorem finish_mapOk {s : State} (ok : MapOk s) : MapOk (finish s) :=
  (settle_mapOk ok).congr (by simp [finish]) (by simp [finish, State.n]) (by simp [finish])

theorem modTimer_mapOk (f : CueTimer → CueTimer) {s : State} (ok : MapOk s) : MapOk (s.modTimer f) :=
  ok.congr rfl rfl rfl

theorem boundaryActs_mapOk (t : Moment) {s : State} (laws : MapLaws s) : MapOk (boundaryActs t s) := by
  have shown : MapOk (showAndExpire (isStep s) (beginFrame t s)) :=
    showAndExpire_mapOk _ (laws.congr (by simp) (by simp))
  have stated : MapOk (stateDueAct (bidExpiryAct (builderBoundary (deadlineAct (silenceAll stationNumbers
      (staleWaiting (showAndExpire (isStep s) (beginFrame t s)))))))) :=
    shown.congr (by simp) (by simp [State.n]) (by simp)
  exact (resetCountAct_mapOk (modTimer_mapOk (fun u => { u with hold := false }) stated)).congr (by simp [boundaryActs]) (by simp [boundaryActs, State.n])
    (by simp [boundaryActs])

theorem takeItem_mapOk (echo : Bool) (b : Frame) (k : Byte) {s : State} (ok : MapOk s) : MapOk (takeItem echo b k s) := by
  unfold takeItem
  split
  · exact ok
  · dsimp only
    unfold takeBoundary
    dsimp only
    split
    · exact itemCut_mapOk b (ok.congr (by simp) (by simp [State.n]) (by simp))
    · exact itemCut_mapOk b (ok.congr (by simp) (by simp [State.n]) (by simp))

/-! ### Packets and echoes -/

theorem packetValid_body {p : Nat} {k : Packet} (valid : packetValid p k = true) : Packet.valid k = true := by
  simp only [packetValid, Bool.and_eq_true] at valid
  exact valid.2

theorem spanValid_count {low count : Nat} (valid : spanValid low count = true) : count = 1 ∨ count = 2 := by
  simp only [spanValid, Bool.and_eq_true, decide_eq_true_eq] at valid
  omega

theorem cue_placed {b : CueBody} {s : State} (valid : CueBody.valid b = true) (fits : cueFits s b = true) :
    Placed s.displayRows b.low b.count := by
  simp only [CueBody.valid, Bool.and_eq_true] at valid
  simp only [cueFits, Bool.and_eq_true] at fits
  exact ⟨spanInside_iff.mp fits.1.1.1.1, spanValid_count valid.1.1.1.1.1.1⟩

theorem state_placed {b : StateBody} {s : State} (valid : StateBody.valid b = true) (fits : stateFits s b = true) :
    (∀ k ∈ b.claims, Placed s.displayRows k.low k.count) ∧ b.claims.length ≤ 4 := by
  simp only [StateBody.valid, Bool.and_eq_true, decide_eq_true_eq, List.all_eq_true] at valid
  simp only [stateFits, Bool.and_eq_true, List.all_eq_true] at fits
  refine ⟨fun k mem => ⟨spanInside_iff.mp (fits.2 k mem).1.1.1, ?_⟩, valid.1.2⟩
  have claim := valid.2 k mem
  simp only [StateClaim.valid, Bool.and_eq_true] at claim
  exact spanValid_count claim.1.1.1

theorem packetFits_congr {s t : State} (straps : t.straps = s.straps) (k : Packet) : packetFits t k = packetFits s k := by
  have rows := State.displayRows_congr straps
  have width := State.rowWidth_congr straps
  have fps := State.fps_congr straps
  have day := State.day_congr straps
  cases k <;> simp only [packetFits, cueFits, stateFits, inDay, spanInside, rows, width, fps, day]

theorem takeTime_laws (sender : Nat) (b : StateBody) (passed : Nat) {s : State} (laws : MapLaws s) :
    MapLaws (takeTime sender b passed s) := by
  unfold takeTime
  split
  · dsimp only
    split
    · exact laws.congr rfl rfl
    · unfold phaseLoad
      dsimp only
      split
      · exact laws.congr (by simp) (by simp)
      · exact (showAndExpire_mapOk true (laws.congr (by simp) (by simp))).laws
  · exact laws

theorem takeState_mapOk {sender : Nat} {b : StateBody} {s : State} (passed : Nat) (valid : StateBody.valid b = true)
    (fits : stateFits s b = true) (laws : MapLaws s) : MapOk (takeState sender b passed s) := by
  obtain ⟨placed, four⟩ := state_placed valid fits
  have timed : MapLaws (joinItem b.item (holderFromState sender (takeTime sender b passed (announce sender b s)))) :=
    (takeTime_laws sender b passed (s := announce sender b s) (laws.congr (by simp) (by simp))).congr (by simp) (by simp)
  have rows : (joinItem b.item (holderFromState sender (takeTime sender b passed (announce sender b s)))).displayRows =
      s.displayRows := State.displayRows_congr (by simp)
  have entered := mapState_laws (sender := sender) (rows ▸ placed) four timed
  exact (expireCues_mapOk entered).congr (by simp [takeState]) (by simp [takeState, State.n]) (by simp [takeState])

theorem cueEcho_mapOk {b : CueBody} {s : State} (placed : Placed s.displayRows b.low b.count) (laws : MapLaws s) :
    MapOk (cueEcho b s) := by
  unfold cueEcho
  split
  · dsimp only
    generalize eq : pushReport _ (s.setClaims _) = u
    have straps : u.straps = s.straps := by rw [← eq]; simp
    have map : u.map = s.map := by rw [← eq]; simp
    have own : s.own = u.own := (State.own_congr straps).symm
    have entered : MapLaws (mapCue u.own b u) :=
      mapCue_laws (by rwa [State.displayRows_congr straps]) (laws.congr straps map)
    exact expireCues_mapOk (entered.congr (by simp) (by simp))
  · exact expireCues_mapOk (mapCue_laws placed laws)

theorem reviseEcho_mapOk {b : CueBody} (t : Text) {s : State} (placed : Placed s.displayRows b.low b.count)
    (laws : MapLaws s) : MapOk (reviseEcho b t s) := by
  unfold reviseEcho
  split
  · dsimp only
    generalize eq : (if ((claimToRevise b.seq _).isSome && !hasPacket (PacketKind.isReviseOf b.seq) _) = true then _ else _) = u
    have straps : u.straps = s.straps := by rw [← eq]; split <;> simp
    have map : u.map = s.map := by rw [← eq]; split <;> simp
    exact expireCues_mapOk (mapRevise_laws (by rwa [State.displayRows_congr straps]) (laws.congr straps map))
  · exact expireCues_mapOk (mapRevise_laws placed laws)

theorem cutEcho_mapOk (seq : Byte) (off : Frame) {s : State} (ok : MapOk s) : MapOk (cutEcho seq off s) := by
  unfold cutEcho
  dsimp only
  split
  · exact mapCut_mapOk _ _ _ (ok.congr (by simp) (by simp [State.n]) (by simp))
  · exact mapCut_mapOk _ _ _ ok

theorem stateEcho_mapOk {b : StateBody} {s : State} (valid : StateBody.valid b = true) (fits : stateFits s b = true) (laws : MapLaws s) :
    MapOk (stateEcho b s) := by
  obtain ⟨placed, four⟩ := state_placed valid fits
  have rows : (announce s.own b s).displayRows = s.displayRows := State.displayRows_congr (by simp)
  have entered : MapLaws (mapState s.own b.claims (announce s.own b s)) :=
    mapState_laws (rows ▸ placed) four (laws.congr (by simp) (by simp))
  exact expireCues_mapOk (entered.congr (by simp) (by simp))

theorem deliverEcho_mapOk {sent : Sent} {s : State} (valid : Packet.valid sent.packet = true)
    (fits : packetFits s sent.packet = true) (ok : MapOk s) : MapOk (deliverEcho sent s) := by
  unfold deliverEcho
  split <;> rename_i packet <;> rw [packet] at valid fits
  · exact cueEcho_mapOk (cue_placed valid fits) ok.laws
  · exact reviseEcho_mapOk _ (cue_placed valid fits) ok.laws
  · exact cutEcho_mapOk _ _ ok
  · split <;> exact ok.congr (by simp) (by simp [State.n]) (by simp)
  · exact ok.congr (by simp) (by simp [State.n]) (by simp)
  · exact takeItem_mapOk true _ _ ok
  · exact stateEcho_mapOk valid fits ok.laws

theorem packetLeft_map (q : QPacket) (s : State) : (packetLeft q s).map = s.map ∧ (packetLeft q s).ref = s.ref := by
  unfold packetLeft
  split <;> simp

theorem echoAct_mapOk (q : QPacket) (sent : Sent) {s : State} (ok : MapOk s) : MapOk (echoAct q sent s) := by
  obtain ⟨straps, -, -⟩ := packetLeft_frame q s
  obtain ⟨map, ref⟩ := packetLeft_map q s
  have left : MapOk (packetLeft q s) := ok.congr straps (congrArg RefUnit.n ref) map
  have heard : MapOk (markHeard s.own (packetLeft q s)) := left.congr (by simp) (by simp [State.n]) (by simp)
  rw [echoAct_eq]
  split
  · split
    · exact deliverEcho_mapOk (packetValid_body ‹_›) ‹_› heard
    · exact heard.congr (by simp) (by simp [State.n]) (by simp)
  · exact left.congr rfl rfl rfl

theorem hear_mapOk {sender : Nat} {k : Packet} {f : State → State} {s : State} (ok : MapOk s)
    (deliver : ∀ u, Packet.valid k = true → packetFits u k = true → MapOk u → MapOk (f u)) : MapOk (hear sender k f s) := by
  refine hear_cases (ok.congr (by simp) (by simp [State.n]) (by simp)) (ok.congr rfl rfl rfl)
    (fun _ => ok.congr (by simp) (by simp [State.n]) (by simp)) (fun _ => ok.congr (by simp) (by simp [State.n]) (by simp))
    fun valid _ fits => deliver _ (packetValid_body valid) ?_ (ok.congr (by simp) (by simp [State.n]) (by simp))
  rwa [packetFits_congr (s := s) (by simp)]

end Sys2Proof.Machine
end

section
/-! The law of the Row Map through every command, and every invariant right after reset. -/

namespace Sys2Proof.Machine

/-- An act that leaves the map, the frame number and the straps. -/
theorem MapOk.finish {s u : State} (ok : MapOk s) (straps : u.straps = s.straps) (n : u.ref.n = s.ref.n)
    (map : u.map = s.map) : MapOk (finish u) := finish_mapOk (ok.congr straps n map)

theorem plainCode_mapOk {f : State → State} {s : State} (ok : MapOk s)
    (act : ∀ u, (f u).straps = u.straps ∧ (f u).ref = u.ref ∧ (f u).map = u.map) : MapOk (plainCode f s) := by
  unfold plainCode
  split
  · exact ok
  · obtain ⟨straps, ref, map⟩ := act (closeCommand s)
    exact ok.congr (by simp [straps]) (by simp [State.n, ref]) (by simp [map])

theorem actCode_mapOk {f : State → State} {s : State} (ok : MapOk s)
    (act : ∀ u, (f u).straps = u.straps ∧ (f u).ref = u.ref ∧ (f u).map = u.map) : MapOk (actCode f s) := by
  unfold actCode
  split
  · exact ok
  · obtain ⟨straps, ref, map⟩ := act (closeCommand s)
    exact ok.finish (by simp [straps]) (by simp [ref]) (by simp [map])

/-- A packet that does not reach the map. -/
theorem hear_finish_mapOk {sender : Nat} {k : Packet} {f : State → State} {s : State} (ok : MapOk s)
    (deliver : ∀ u, (f u).straps = u.straps ∧ (f u).ref = u.ref ∧ (f u).map = u.map) : MapOk (finish (hear sender k f s)) :=
  finish_mapOk (hear_mapOk ok fun u _ _ ok => ok.congr (deliver u).1 (congrArg RefUnit.n (deliver u).2.1) (deliver u).2.2)

theorem takeCharacter_mapOk (c : Byte) {s : State} (ok : MapOk s) : MapOk (takeCharacter c s) := by
  unfold takeCharacter
  split
  · exact ok
  · split <;> exact ok.congr (by simp) (by simp [State.n]) (by simp)

theorem discardByte_mapOk (framingError : Bool) (b : Byte) {s : State} (ok : MapOk s) : MapOk (discardByte framingError b s) := by
  unfold discardByte
  split <;> exact ok.congr (by simp) (by simp [State.n]) (by simp)

theorem takeCue_mapOk (sender : Nat) {b : CueBody} {s : State} (valid : CueBody.valid b = true) (fits : cueFits s b = true)
    (ok : MapOk s) : MapOk (takeCue sender b s) :=
  (expireCues_mapOk (mapCue_laws (sender := sender) (cue_placed valid fits) ok.laws)).congr (by simp [takeCue]) (by simp [takeCue, State.n])
    (by simp [takeCue])

theorem takeRevise_mapOk (sender : Nat) {b : CueBody} {s : State} (valid : CueBody.valid b = true)
    (fits : cueFits s b = true) (ok : MapOk s) : MapOk (takeRevise sender b s) :=
  (expireCues_mapOk (mapRevise_laws (sender := sender) (cue_placed valid fits) ok.laws)).congr (by simp [takeRevise])
    (by simp [takeRevise, State.n]) (by simp [takeRevise])

theorem powerOnState_mapOk (pins : StrapPins) (m : Moment) (s : State) : MapOk (powerOnState pins m s) := by
  refine mapOk_iff.mpr ⟨by simp [powerOnState, State.reset], ⟨?_, ?_, ?_⟩, ?_⟩ <;>
    simp [powerOnState, State.reset, Apart]

theorem exec_mapOk (i : Instr) {s : State} (ok : MapOk s) : Answers MapOk (exec i s) := by
  cases i with
  | powerOn pins m => exact .next (powerOnState_mapOk pins m s)
  | referencePulse t =>
    exact .ite (fun _ => .next (finish_mapOk (boundaryActs_mapOk t (s := pulseInstant t s) ok.laws))) fun _ => .next ok
  | flywheelExpiry => exact .next (finish_mapOk (boundaryActs_mapOk _ (s := flywheelInstant s) ok.laws))
  | guardWindowOpen => exact .next ok
  | timecodeValue h m sec f => exact .ite (fun _ => .next ok) fun _ => .next ok
  | timecodeLost => exact .next (by unfold timecodeLostAct; split <;> exact ok)
  | peerTimeSilenceExpiry => exact .next (by unfold peerTimeAct; split <;> exact ok)
  | character c =>
    exact .ite (fun _ => .next ok) fun _ => .ite (fun _ => .next (finish_mapOk (takeCharacter_mapOk c ok)))
      fun _ => .next (discardByte_mapOk _ c ok)
  | discardedByte framingError b => exact .ite (fun _ => .next ok) fun _ => .next (discardByte_mapOk _ b ok)
  | endBlock => exact .next (actCode_mapOk ok fun u => by unfold endBlockAct; split <;> simp)
  | speaker => exact .next (actCode_mapOk ok fun u => by unfold speakerAct; split <;> simp)
  | retract => exact .next (actCode_mapOk ok fun u => by unfold retractAct; split <;> simp)
  | scriptBegin => exact .next (plainCode_mapOk ok fun _ => ⟨rfl, rfl, rfl⟩)
  | scriptEnd => exact .next (plainCode_mapOk ok fun u => by unfold scriptEndAct; split <;> simp)
  | loopOn => exact .next (plainCode_mapOk ok fun _ => ⟨rfl, rfl, rfl⟩)
  | loopOff => exact .next (plainCode_mapOk ok fun _ => ⟨rfl, rfl, rfl⟩)
  | next => exact .next (actCode_mapOk ok fun u => by simp)
  | take => exact .next (actCode_mapOk ok fun u => by unfold takeAct; (repeat' split) <;> simp)
  | yield => exact .next (actCode_mapOk ok fun u => by unfold yieldAct; split <;> simp)
  | park => exact .next (actCode_mapOk ok fun u => by unfold parkCode parkActive; (repeat' split) <;> simp)
  | unpark => exact .next (actCode_mapOk ok fun u => by unfold unparkCode; split <;> simp)
  | hold => exact .next (plainCode_mapOk ok fun _ => ⟨rfl, rfl, rfl⟩)
  | release => exact .next (plainCode_mapOk ok fun u => by unfold releaseAct; split <;> simp)
  | status => exact .next (plainCode_mapOk ok fun _ => ⟨rfl, rfl, rfl⟩)
  | reset =>
    exact .ite (fun _ => .next ok) fun _ => .ite
      (fun _ => .next (ok.congr (by simp) (by simp [State.n]) (by simp)))
      fun _ => .next (ok.finish (by simp) (by simp) (by simp))
  | paceIntroducer => exact .next (plainCode_mapOk ok fun _ => ⟨rfl, rfl, rfl⟩)
  | paceTerminator => exact .ite (fun _ => .next ok) fun _ => .next (ok.congr (by simp) (by simp [State.n]) (by simp))
  | idleClose => exact .next (ok.finish (by simp) (by simp) (by simp))
  | yieldDeadline => exact .next (ok.finish (by simp) (by simp) (by simp))
  | bidWaitExpiry => exact .next (ok.finish (by simp) (by simp) (by simp))
  | peerSilent peer => exact .next (ok.finish (by simp) (by simp) (by simp))
  | stateDue => exact .next (ok.congr (by simp) (by simp [State.n]) (by simp))
  | mismatchCountExpiry => exact .next ok
  | joinWaitExpiry => exact .next (ok.finish (by simp) (by simp) (by simp))
  | resetCountExpiry => exact .next (finish_mapOk (resetCountAct_mapOk ok))
  | resetDrained => exact .next ((drainAct_mapOk ok).congr (by simp) (by simp [State.n]) (by simp))
  | deferredPark => exact .next (ok.congr (by simp) (by simp [State.n]) (by simp))
  | itemContactClose =>
    exact .next (by unfold contactAct; (repeat' split) <;> exact ok.congr (by simp) (by simp [State.n]) (by simp))
  | lineIdle t => exact .ite (fun _ => .next ok) fun _ => .next ok
  | transmissionStart t => exact .ite (fun _ => .next (ok.finish (by simp) (by simp) (by simp))) fun _ => .next ok
  | packetEcho => exact execPacketEcho_cases (fun q sent _ _ => finish_mapOk (echoAct_mapOk q sent ok)) ok
  | readbackMismatch => exact execReadbackMismatch_cases (fun q _ => ok.finish (by simp) (by simp) (by simp)) ok
  | waitingRequestEntry => exact .next (ok.congr (by simp) (by simp [State.n]) (by simp))
  | cutShortPacket => exact .next ok
  | discardedPacket => exact .next ok
  | cuePacket sender body => exact .next (finish_mapOk (hear_mapOk ok fun _ => takeCue_mapOk sender))
  | revisePacket sender body => exact .next (finish_mapOk (hear_mapOk ok fun _ => takeRevise_mapOk sender))
  | cutPacket sender seq off => exact .next (finish_mapOk (hear_mapOk ok fun _ _ _ => mapCut_mapOk sender seq off))
  | plainTake sender => exact .next (hear_finish_mapOk ok fun u => by simp)
  | forcedTake sender => exact .next (hear_finish_mapOk ok fun u => by simp)
  | yieldPacket sender successor => exact .next (hear_finish_mapOk ok fun u => by simp)
  | itemPacket sender boundary number =>
    exact .next (finish_mapOk (hear_mapOk ok fun _ _ _ => takeItem_mapOk false boundary number))
  | statePacket sender body =>
    exact .next (finish_mapOk (hear_mapOk ok fun _ valid fits ok => takeState_mapOk _ valid fits ok.laws))
  | reportLineSent => exact .next ok
  | lineBusy => exact .ite (fun _ => .next ok) fun _ => .next ok

/-- Settles O58: entries, tests, bounds and expiry keep the law, by `exec_mapOk`. -/
theorem mapStaysLawful : Obligations.MapStaysLawful := by
  intro s t ok run
  rcases step_cases run with rfl | ⟨c, rest, -, run⟩
  · exact ok
  · exact exec_mapOk c (s := { s with pending := rest }) ok t run

/-- Settles O53: reset is a power-on, and the invariants hold of its empty units. -/
theorem resetMeetsInvariants : Obligations.ResetMeetsInvariants :=
  ⟨reset_textOk, reset_scriptOk, powerOnState_pacingOk allStrapsOpen 0 State.reset,
    (powerOnState_ends allStrapsOpen 0 State.reset).floorOk, reset_capacityOk,
    powerOnState_mapOk allStrapsOpen 0 State.reset, by
      refine ⟨rfl, rfl, rfl, rfl, rfl, .inl rfl, ?_, ?_⟩ <;> rintro ⟨⟩⟩

end Sys2Proof.Machine
end

section
/-! The Block Builder (02): how a character, a word, a code and a retraction find the Compose Buffer, for a station whose text goes
to it. -/

namespace Sys2Proof.Machine

/-! ### Power-on and the distance of frames -/

theorem powerOnPeers_getElem? {own p : Nat} (low : 1 ≤ p) (high : p ≤ 16) :
    (powerOnPeers own)[p - 1]? =
      some { presence := if p = own then .present else .unknown, unheard := 0, floor := none, status := none } := by
  have listed : stationNumbers[p - 1]? = some p := by interval_cases p <;> rfl
  rw [powerOnPeers, List.getElem?_map, listed, Option.map_some]
  by_cases self : p = own <;> simp [self, Peer.unheardOf]

/-- Settles O3: power-on builds the state from the reset values; only the Peer Table depends on the straps. -/
theorem powerOnValues : Obligations.PowerOnValues := by
  intro pins m s
  refine ⟨powerOnState pins m s, rfl, ?_⟩
  constructorm* _ ∧ _
  any_goals rfl
  exact fun p => powerOnPeers_getElem?

/-- Settles O6: of the residues of `b - a` exactly one lies in the half-open range, and for an even D it ends at D/2 − 1. -/
theorem distanceIsSigned : Obligations.DistanceIsSigned := by
  intro day a b positive even
  obtain ⟨residue, low, high⟩ := frameDist_spec positive a b
  exact ⟨by omega, by omega, residue⟩

/-! ### Text goes to the Block Builder -/

theorem closeCommand_of_none {s : State} (closed : s.pacing.command = none) : closeCommand s = s :=
  if_neg (by simp [closed])

theorem State.loadingScript_eq_false {s : State} (load : s.script.load = .notLoading) : s.loadingScript = false :=
  Bool.eq_false_of_not_eq_true fun loading => s.loadingScript_iff.mp loading load

/-- A control code on a station with no open PACE command. -/
theorem actCode_closed {f : State → State} {s : State} (taken : s.station.mode ≠ .resetting)
    (closed : s.pacing.command = none) : actCode f s = finish (f s) := by
  rw [actCode_taken f taken, closeCommand_of_none closed]

theorem exec_character_taken {c : Byte} {s : State} (taken : s.station.mode ≠ .resetting) (char : isCharacter c = true) :
    exec (.character c) s = .next (finish (takeCharacter c s)) :=
  (if_neg (by simp [State.portClosed_eq_false taken])).trans (if_pos char)

theorem takeCharacter_closed {c : Byte} {s : State} (closed : s.pacing.command = none) :
    takeCharacter c s = if s.loadingScript then storeCharacter c s else builderCharacter c s := by
  rw [takeCharacter, closed]

theorem TextReady.character {c : Byte} {s : State} (ready : TextReady s) (char : isCharacter c = true) :
    exec (.character c) s = .next (finish (builderCharacter c s)) := by
  obtain ⟨taken, closed, load⟩ := ready
  rw [exec_character_taken taken char, takeCharacter_closed closed, State.loadingScript_eq_false load,
    if_neg Bool.false_ne_true]

theorem TextReady.endBlock {s : State} (ready : TextReady s) :
    exec .endBlock s = .next (finish (restartIdle (closeOpen .finish s))) := by
  obtain ⟨taken, closed, load⟩ := ready
  refine congrArg Host.Outcome.next ((actCode_closed taken closed).trans ?_)
  rw [endBlockAct, State.loadingScript_eq_false load, if_neg Bool.false_ne_true]

theorem TextReady.speaker {s : State} (ready : TextReady s) :
    exec .speaker s = .next (finish ((restartIdle (closeOpen .speaker s)).modText fun t => { t with speakerMark := true })) := by
  obtain ⟨taken, closed, load⟩ := ready
  refine congrArg Host.Outcome.next ((actCode_closed taken closed).trans ?_)
  rw [speakerAct, State.loadingScript_eq_false load, if_neg Bool.false_ne_true]

theorem TextReady.retract {s : State} (ready : TextReady s) : exec .retract s = .next (finish (liveRetract s)) := by
  obtain ⟨taken, closed, load⟩ := ready
  refine congrArg Host.Outcome.next ((actCode_closed taken closed).trans ?_)
  rw [retractAct, load]

/-! ### A character (R18, R19) -/

theorem builderCharacter_space (s : State) : builderCharacter spaceByte s = restartIdle (completeAndTest s) := by
  rw [builderCharacter, if_pos rfl]

theorem builderCharacter_joins {c : Byte} {s : State} (other : c ≠ spaceByte) (room : s.text.word.length < s.rowWidth) :
    builderCharacter c s = restartIdle (addCharacter c s) := by
  rw [builderCharacter, if_neg other, if_neg (by omega)]

theorem builderCharacter_splits {c : Byte} {s : State} (other : c ≠ spaceByte) (full : s.rowWidth ≤ s.text.word.length) :
    builderCharacter c s = restartIdle (addCharacter c (completeAndTest s)) := by
  rw [builderCharacter, if_neg other, if_pos full]

theorem addCharacter_eq (c : Byte) (s : State) :
    addCharacter c s = { s with text := { s.text with
      word := s.text.word ++ [c],
      wordArrival := if s.text.word = [] then some s.n else s.text.wordArrival,
      arrival := if s.text.word = [] ∧ s.text.openText.rows = [] then some s.n else s.text.arrival } } := by
  unfold addCharacter
  by_cases word : s.text.word = []
  · simp [word, State.modText]
  · simp [word, State.modText]

theorem completeAndTest_of_no_word {s : State} (word : s.text.word = []) : completeAndTest s = s :=
  if_pos (by simp [word])

theorem completeAndTest_of_word {s : State} (word : s.text.word ≠ []) :
    completeAndTest s =
      if isSentenceEnd s.text.word = true ∧ 16 ≤ (completeWord s).text.openText.count then closeBlock .sentence (completeWord s)
      else completeWord s := by
  rw [completeAndTest, if_neg (by simpa using word)]
  simp only [Bool.and_eq_true, decide_eq_true_eq]

/-- Settles O12: a character with room joins the word, and a space with no word finds nothing to complete. -/
theorem characterJoinsWord : Obligations.CharacterJoinsWord := by
  intro c s ready char
  refine ⟨fun other room => ?joins, fun space word => ?space⟩
  case joins =>
    rw [ready.character char, builderCharacter_joins other room, addCharacter_eq]
    rfl
  case space =>
    subst space
    rw [ready.character char, builderCharacter_space, completeAndTest_of_no_word word]
    rfl

/-- Settles O13: a space and a split both complete and test the word in formation; the split adds its character after. -/
theorem wordCompletes : Obligations.WordCompletes := by
  intro c s ready char word ends
  dsimp only
  have placed := completeWord_of_word word
  rw [State.modText] at placed
  rw [ready.character char, ← placed, ← completeAndTest_of_word word]
  by_cases space : c = spaceByte
  · rw [if_pos space, space, builderCharacter_space]
  · rw [if_neg space, builderCharacter_splits space (ends.resolve_left space)]

/-! ### A word finds its place (R21, R22) -/

theorem Text.opened_eq (width : Nat) (mark : Bool) (w : TextWord) :
    Text.opened width mark w =
      if mark = true then
        (if 2 + w.length ≤ width then { rows := [[w]], speaker := true } else { rows := [[], [w]], speaker := true })
      else { rows := [[w]], speaker := false } := rfl

theorem Text.fit_of_room {width : Nat} {t : Text} {w : TextWord} (room : t.lastLength + 1 + w.length ≤ width) :
    t.fit width w = .joins := if_pos room

theorem Text.fit_of_one_row {width : Nat} {t : Text} {w : TextWord} (tight : width < t.lastLength + 1 + w.length)
    (one : t.rows.length < 2) : t.fit width w = .opensRow2 := by
  rw [Text.fit, if_neg (by omega), if_pos one]

theorem Text.fit_of_two_rows {width : Nat} {t : Text} {w : TextWord} (tight : width < t.lastLength + 1 + w.length)
    (two : 2 ≤ t.rows.length) : t.fit width w = .full := by
  rw [Text.fit, if_neg (by omega), if_neg (by omega)]

theorem placeWord_opens {w : TextWord} {a : Frame} {s : State} (rows : s.text.openText.rows = []) :
    placeWord w a s = openBlock w a s := if_pos (by simp [rows])

theorem placeWord_joins {w : TextWord} {a : Frame} {s : State} (rows : s.text.openText.rows ≠ [])
    (fit : s.text.openText.fit s.rowWidth w = .joins) :
    placeWord w a s = { s with text := { s.text with openText := s.text.openText.joined w } } := by
  rw [placeWord, if_neg (by simpa using rows), fit]
  rfl

theorem placeWord_opensRow2 {w : TextWord} {a : Frame} {s : State} (rows : s.text.openText.rows ≠ [])
    (fit : s.text.openText.fit s.rowWidth w = .opensRow2) :
    placeWord w a s = { s with text := { s.text with openText := s.text.openText.withRow w } } := by
  rw [placeWord, if_neg (by simpa using rows), fit]
  rfl

theorem placeWord_full {w : TextWord} {a : Frame} {s : State} (rows : s.text.openText.rows ≠ [])
    (fit : s.text.openText.fit s.rowWidth w = .full) :
    placeWord w a s = openBlock w a (closeBlock .full s) := by
  rw [placeWord, if_neg (by simpa using rows), fit]

/-- Settles O14: by the rows of the open block, and in each case by whether the word fits the last of them. -/
theorem wordsFillRows : Obligations.WordsFillRows := by
  intro w a s
  refine ⟨fun rows => ?opens, fun r rows => ?oneRow, fun r q rows => ⟨fun room => ?joins, fun tight => ?full⟩⟩
  case opens =>
    rw [placeWord_opens rows, ← Text.opened_eq]
    rfl
  case oneRow =>
    dsimp only
    have held : s.text.openText.rows ≠ [] := by simp [rows]
    have last := Text.lastLength_one rows
    rw [Text.prefixLength, Nat.add_comm] at last
    rw [← last]
    by_cases room : s.text.openText.lastLength + 1 + w.length ≤ s.rowWidth
    · rw [placeWord_joins held (Text.fit_of_room room), if_pos room, ← Text.joined_rows_one rows]
      rfl
    · rw [placeWord_opensRow2 held (Text.fit_of_one_row (by omega) (by simp [rows])), if_neg room,
        ← Text.withRow_rows_one rows]
      rfl
  case joins =>
    rw [← Text.lastLength_two rows] at room
    rw [placeWord_joins (by simp [rows]) (Text.fit_of_room room), ← Text.joined_rows_two rows]
    rfl
  case full =>
    rw [← Text.lastLength_two rows] at tight
    exact placeWord_full (by simp [rows]) (Text.fit_of_two_rows tight (by simp [rows]))

/-! ### Closes (R23 to R27) -/

/-- Settles O15: the closed block enters the tail of the queue, by whether that has room. -/
theorem closeEntersQueue : Obligations.CloseEntersQueue := by
  intro cause s
  refine ⟨fun room => ?room, fun head rest queue full => ?full⟩
  case room =>
    unfold closeBlock
    exact enterTail_room _ room
  case full =>
    unfold closeBlock
    exact enterTail_full _ queue full

theorem closeOpen_eq (cause : CloseCause) (s : State) :
    closeOpen cause s = if s.text.composeEmpty = true then s else closeBlock cause (completeWord s) := by
  split
  · exact closeOpen_empty ‹_›
  · exact closeOpen_nonempty (Bool.eq_false_of_not_eq_true ‹_›)

theorem idleDue_iff (s : State) :
    idleDue s = true ↔ s.text.composeEmpty = false ∧ s.pacing.active.pi ≤ s.text.idleCount := by
  simp [idleDue]

/-- Settles O16: the three closes are one, `closeOpen`, with the cause of each. -/
theorem codesCloseOpenBlock : Obligations.CodesCloseOpenBlock := by
  refine ⟨fun s ready => ?endBlock, fun s ready => ?speaker, fun s text due => ?idle⟩
  case endBlock => rw [ready.endBlock, closeOpen_eq]
  case speaker =>
    rw [ready.speaker, closeOpen_eq]
    rfl
  case idle =>
    refine congrArg (fun u => Host.Outcome.next (finish u)) ?_
    rw [idleCloseAct, if_pos ((idleDue_iff s).mpr ⟨text, due⟩), closeOpen_nonempty text]

end Sys2Proof.Machine
end

section
/-! Retractions of live text by where they find a word (R34 to R36, R84 to R86), and the bytes the text port discards or ignores. -/

namespace Sys2Proof.Machine

/-! ### A text less its last word (R34) -/

theorem Text.retracted_of_word {t : Text} {rows : List (List TextWord)} (left : dropLastWord t.rows = rows)
    (word : ({ t with rows := rows } : Text).hasWord = true) : t.retracted = { t with rows := rows } := by
  subst left
  exact if_pos word

theorem dropLastWord_oneRow (r : List TextWord) (w : TextWord) : dropLastWord [r ++ [w]] = [r] := by
  simp [dropLastWord]

theorem dropLastWord_lastOfRow2 (r : List TextWord) (w : TextWord) : dropLastWord [r, [w]] = [r] := by
  simp [dropLastWord]

theorem dropLastWord_row2 {q : List TextWord} (r : List TextWord) (w : TextWord) (row : q ≠ []) :
    dropLastWord [r, q ++ [w]] = [r, q] := by
  simp [dropLastWord, row]

theorem Text.hasWord_iff (t : Text) : t.hasWord = true ↔ ∃ r ∈ t.rows, r ≠ [] := by
  simp [Text.hasWord]

/-! ### The Compose Buffer and the tail of the queue -/

theorem liveRetract_compose {s : State} (text : s.text.composeEmpty = false) : liveRetract s = composeRetract s :=
  if_pos (by simp [text])

theorem liveRetract_queue {s : State} (empty : s.text.composeEmpty = true) (queued : s.text.queue ≠ []) :
    liveRetract s = queueRetract s := by
  rw [liveRetract, if_neg (by simp [empty]), if_pos (by simpa using queued)]

theorem liveRetract_claims {s : State} (empty : s.text.composeEmpty = true) (none : s.text.queue = []) :
    liveRetract s = claimRetract s := by
  rw [liveRetract, if_neg (by simp [empty]), if_neg (by simp [none])]

theorem composeRetract_word {s : State} (word : s.text.word ≠ []) :
    composeRetract s = { s with text := { s.text with
      word := [], wordArrival := none, idleCount := 0,
      arrival := if s.text.openText.hasWord = true then s.text.arrival else none } } :=
  if_neg (by simpa using word)

theorem composeRetract_placed {s : State} (word : s.text.word = []) (left : s.text.openText.retracted.hasWord = true) :
    composeRetract s = { s with text := { s.text with openText := s.text.openText.retracted, idleCount := 0 } } :=
  (if_pos (by simp [word])).trans (if_pos left)

theorem composeRetract_last {s : State} (word : s.text.word = []) (left : s.text.openText.retracted.hasWord = false) :
    composeRetract s = { s with text := { s.text with
      openText := Text.empty, arrival := none, idleCount := 0,
      speakerMark := s.text.speakerMark || s.text.openText.speaker } } :=
  (if_pos (by simp [word])).trans (if_neg (by simp [left]))

theorem queueRetract_shortened {s : State} {rest : List Block} {b : Block} (queue : s.text.queue = rest ++ [b])
    (left : b.text.retracted.hasWord = true) :
    queueRetract s = pushReport (.revised b.seq) { s with text := { s.text with
      queue := rest ++ [{ b with text := b.text.retracted }] } } := by
  simp [queueRetract, queue, left, State.modText]

theorem queueRetract_removed {s : State} {rest : List Block} {b : Block} (queue : s.text.queue = rest ++ [b])
    (left : b.text.retracted.hasWord = false) :
    queueRetract s = pushReport (.revised b.seq) { s with
      text := { s.text with queue := rest }, timer := { s.timer with hold := s.timer.hold && !rest.isEmpty } } := by
  simp [queueRetract, queue, left, State.modText, State.modTimer]

/-- Settles O17: by where the last word is found, and the rows of the text it leaves. -/
theorem retractTakesLastWord : Obligations.RetractTakesLastWord := by
  refine ⟨fun s ready => ?live, fun r q w speaker => ?rows⟩
  case live =>
    rw [ready.retract]
    refine ⟨fun word => ?word, fun word left held => ?placed, fun word left held => ?last,
      fun rest b empty queue left => ?shortened, fun rest b empty queue left => ?removed⟩
    case word => rw [liveRetract_compose (by simp [BlockBuilder.composeEmpty, word]), composeRetract_word word]
    case placed => rw [liveRetract_compose (by simp [BlockBuilder.composeEmpty, held]), composeRetract_placed word left]
    case last => rw [liveRetract_compose (by simp [BlockBuilder.composeEmpty, held]), composeRetract_last word left]
    case shortened => rw [liveRetract_queue empty (by simp [queue]), queueRetract_shortened queue left]
    case removed => rw [liveRetract_queue empty (by simp [queue]), queueRetract_removed queue left]
  case rows =>
    refine ⟨rfl, rfl, fun row => ?oneRow, fun row => ?lastOfRow2, fun row => ?row2⟩
    case oneRow =>
      exact Text.retracted_of_word (dropLastWord_oneRow r w) ((Text.hasWord_iff _).mpr ⟨r, by simp, row⟩)
    case lastOfRow2 =>
      exact Text.retracted_of_word (dropLastWord_lastOfRow2 r w) ((Text.hasWord_iff _).mpr ⟨r, by simp, row⟩)
    case row2 =>
      exact Text.retracted_of_word (dropLastWord_row2 r w row) ((Text.hasWord_iff _).mpr ⟨q, by simp, row⟩)

/-! ### The claims (R84 to R86) -/

theorem PacketKind.isReviseOf_iff {seq : Byte} {k : PacketKind} : k.isReviseOf seq = true ↔ k = .revise seq := by
  cases k <;> simp [PacketKind.isReviseOf]

theorem PacketKind.isCueOf_iff {seq : Byte} {k : PacketKind} : k.isCueOf seq = true ↔ k = .cue seq := by
  cases k <;> simp [PacketKind.isCueOf]

theorem claimRetract_late {s : State} (newest : newestClaim s.claims = none) :
    claimRetract s = pushReport (.late none) s := by
  rw [claimRetract, newest]

theorem claimRetract_planned {s : State} {c : Claim} (newest : newestClaim s.claims = some c) (planned : c.state = .planned) :
    claimRetract s = editPlanned c s := by
  rw [claimRetract, newest]
  exact if_pos (by simp [Claim.isPlanned, planned])

/-- R86 takes the retraction of a claim sent but not on air, 5 frames or more before its show, on the floor. -/
theorem claimRetract_sent {s : State} {c : Claim} (newest : newestClaim s.claims = some c) (planned : c.state ≠ .planned) :
    claimRetract s =
      if (c.state = .sending ∨ c.state = .claimed) ∧ 5 ≤ s.dist s.n c.showAt ∧
          (s.floor.state = .live ∨ s.floor.state = .yielding) then reviseClaim c s
      else pushReport (.late (some c.seq)) s := by
  rw [claimRetract, newest]
  refine (if_neg (by simp [Claim.isPlanned, planned])).trans ?_
  simp only [Bool.and_eq_true, Bool.or_eq_true, decide_eq_true_eq, State.onFloor_iff, and_assoc]

theorem editPlanned_shortened {c : Claim} (s : State) (left : c.text.retracted.hasWord = true) :
    editPlanned c s = pushReport (.revised c.seq)
      { s with claims := (s.claims.map fun d => if d.seq = c.seq then { d with text := c.text.retracted } else d) } := by
  rw [editPlanned, if_pos left]
  rfl

theorem editPlanned_removed {c : Claim} (s : State) (left : c.text.retracted.hasWord = false) :
    editPlanned c s = pushReport (.revised c.seq) (removeUnstarted (PacketKind.isCueOf c.seq)
      { s with claims := s.claims.eraseP fun d => decide (d.seq = c.seq ∧ d.state = .planned) }) := by
  rw [editPlanned, if_neg (by simp [left]), removeOnePlanned]
  simp only [Claim.isPlanned, ← Bool.decide_and]
  rfl

/-- The REVISE of a claim waits: one not started stands in the Transmit Queue, or a request for one waits (R86). -/
theorem reviseWaits_iff (seq : Byte) (s : State) :
    ((s.line.queue.any fun q => q.kind.isReviseOf seq && !q.started) || (s.line.waiting.any fun q => q.kind.isReviseOf seq)) =
        true ↔
      (∃ q ∈ s.line.queue, q.kind = .revise seq ∧ q.sent = none) ∨ ∃ q ∈ s.line.waiting, q.kind = .revise seq := by
  simp [PacketKind.isReviseOf_iff, QPacket.started]

theorem reviseClaim_shortened {c : Claim} {s : State} (left : (c.revision.getD c.text).retracted.hasWord = true) :
    reviseClaim c s =
      if (∃ q ∈ s.line.queue, q.kind = .revise c.seq ∧ q.sent = none) ∨ ∃ q ∈ s.line.waiting, q.kind = .revise c.seq then
        { s with claims := (s.claims.map fun d =>
          if d.seq = c.seq then { d with revision := some (c.revision.getD c.text).retracted } else d) }
      else requestPacket (.revise c.seq) { s with claims := (s.claims.map fun d =>
          if d.seq = c.seq then { d with revision := some (c.revision.getD c.text).retracted } else d) } := by
  rw [reviseClaim, if_pos left]
  simp only [← reviseWaits_iff]
  rfl

theorem reviseClaim_withdrawn {c : Claim} {s : State} (left : (c.revision.getD c.text).retracted.hasWord = false) :
    reviseClaim c s = withdraw c.seq c.showAt .none
      { s with claims := (s.claims.map fun d => if d.seq = c.seq then { d with emptied := true } else d) } :=
  if_neg (by simp [left])

/-- Settles O18: by the newest claim not withdrawing, its state and the text the retraction leaves it. -/
theorem retractReachesClaims : Obligations.RetractReachesClaims := by
  intro s ready empty queue
  rw [ready.retract, liveRetract_claims empty queue]
  refine ⟨fun newest => ?none, fun c newest planned left => ?shortened, fun c newest planned left => ?removed,
    fun c newest planned late => ?late, fun c left newest sent ahead floor kept => ?sent⟩
  case none => rw [claimRetract_late newest]
  case shortened => rw [claimRetract_planned newest planned, editPlanned_shortened s left]
  case removed => rw [claimRetract_planned newest planned, editPlanned_removed s left]
  case late =>
    rw [claimRetract_sent newest planned, if_neg]
    rintro ⟨sent, ahead, floor⟩
    rcases late with air | near | off | off
    · simp [air] at sent
    · omega
    · simp [off] at floor
    · simp [off] at floor
  case sent =>
    subst kept
    have planned : c.state ≠ .planned := by rcases sent with sent | sent <;> simp [sent]
    rw [claimRetract_sent newest planned, if_pos ⟨sent, ahead, floor⟩]
    refine ⟨fun left queue waiting => ?asks, fun left waits => ?waits, fun left => ?withdrawn⟩
    case asks =>
      rw [reviseClaim_shortened left, if_neg]
      rintro (⟨q, mem, kind, unsent⟩ | ⟨q, mem, kind⟩)
      · simpa [unsent] using queue q mem kind
      · exact waiting q mem kind
    case waits => rw [reviseClaim_shortened left, if_pos waits]
    case withdrawn => rw [reviseClaim_withdrawn left]

/-! ### Bytes discarded and ignored (R17, R37) -/

theorem Flags.raise_raise (f : Flags) (g : Sticky) : (f.raise g).raise g = f.raise g := by
  cases g <;> rfl

/-- An open PACE command ended by a byte that flags TEXT_ERROR anyway. -/
theorem closeCommand_flag (s : State) :
    (closeCommand s).flag .textError = State.flagged .textError { s with pacing := { s.pacing with command := none } } := by
  cases unclosed : s.pacing.command with
  | none =>
    rw [closeCommand_of_none unclosed, ← unclosed]
    rfl
  | some cs =>
    rw [closeCommand, if_pos (by simp [unclosed])]
    simp [State.flag, State.flagged, State.modReport, State.modPacing, Flags.raise_raise]

/-- Settles O19: a discarded byte by whether it is a control code taken as one; every command of the text port asks first
whether the port is closed. -/
theorem bytesDiscardedOrIgnored : Obligations.BytesDiscardedOrIgnored := by
  refine ⟨fun framingError b s taken => ?discarded, fun i s resetting code => ?ignored⟩
  case discarded =>
    refine (if_neg (by simp [State.portClosed_eq_false taken])).trans (congrArg Host.Outcome.next ?_)
    rw [discardByte, closeCommand_flag]
    cases framingError <;> cases isControl b <;> rfl
  case ignored =>
    have closed : s.portClosed = true := decide_eq_true resetting
    rcases code with code | ⟨c, rfl⟩ | ⟨e, b, rfl⟩
    · simp only [List.mem_cons, List.not_mem_nil, or_false] at code
      rcases code with rfl | rfl | rfl | rfl | rfl | rfl | rfl | rfl | rfl | rfl | rfl | rfl | rfl | rfl | rfl | rfl | rfl | rfl
      all_goals
        simp [exec, execEndBlock, execSpeaker, execRetract, execScriptBegin, execScriptEnd, execLoopOn, execLoopOff, execNext,
          execTake, execYield, execPark, execUnpark, execHold, execRelease, execStatus, execReset, execPaceIntroducer,
          execPaceTerminator, plainCode, actCode, closed, resetting]
    · exact if_pos closed
    · exact if_pos closed

end Sys2Proof.Machine
end

section
/-! The Script Store while it loads (03): the place of a loaded word, and text units that reach the store alone. -/

namespace Sys2Proof.Machine

/-! ### A loaded word finds its place (R39, R41) -/

theorem ScriptStore.storeLoading_of_laidOrNone {W : Nat} {u : ScriptStore} (laid : u.loadText.LaidOrNone W) :
    u.storeLoading = { u with
      stored := if u.loadText.rows = [] then u.stored else u.stored ++ [u.loadText],
      loadText := if u.loadText.rows = [] then u.loadText else Text.empty } := by
  by_cases rows : u.loadText.rows = []
  · rw [ScriptStore.storeLoading_of_no_rows rows, if_pos rows, if_pos rows]
  · rw [ScriptStore.storeLoading_of_rows laid rows, if_neg rows, if_neg rows]

theorem ScriptStore.place_opens {u : ScriptStore} (W : Nat) (w : TextWord) (rows : u.loadText.rows = []) :
    u.place W w = u.opens W w := if_pos (by simp [rows])

theorem ScriptStore.place_joins {W : Nat} {u : ScriptStore} {w : TextWord} (rows : u.loadText.rows ≠ [])
    (fit : u.loadText.fit W w = .joins) :
    u.place W w = if u.storedChars + (w.length + 1) ≤ 4096 then
      some { u with loadText := u.loadText.joined w, storedChars := u.storedChars + (w.length + 1) } else none := by
  rw [ScriptStore.place, if_neg (by simpa using rows), fit]
  rfl

theorem ScriptStore.place_opensRow2 {W : Nat} {u : ScriptStore} {w : TextWord} (rows : u.loadText.rows ≠ [])
    (fit : u.loadText.fit W w = .opensRow2) :
    u.place W w = if u.storedChars + w.length ≤ 4096 then
      some { u with loadText := u.loadText.withRow w, storedChars := u.storedChars + w.length } else none := by
  rw [ScriptStore.place, if_neg (by simpa using rows), fit]
  rfl

theorem ScriptStore.place_full {W : Nat} {u : ScriptStore} {w : TextWord} (laid : u.loadText.LaidOrNone W)
    (rows : u.loadText.rows ≠ []) (fit : u.loadText.fit W w = .full) :
    u.place W w = ({ u with stored := u.stored ++ [u.loadText], loadText := .empty } : ScriptStore).opens W w := by
  rw [ScriptStore.place, if_neg (by simpa using rows), fit, ← ScriptStore.storeLoading_of_rows laid rows]

/-- The store with the loading word taken from it, to be placed. -/
def State.wordTaken (s : State) : ScriptStore := { s.script with loadWord := [] }

theorem completeLoading_placed {s : State} {u : ScriptStore} (word : s.script.loadWord ≠ [])
    (placed : s.wordTaken.place s.rowWidth s.script.loadWord = some u) : completeLoading s = { s with script := u } := by
  rw [completeLoading, if_neg (by simpa using word)]
  rw [State.wordTaken] at placed
  rw [placed]
  rfl

/-- A word that does not fit fills the store (R41). -/
theorem completeLoading_filled {s : State} (word : s.script.loadWord ≠ [])
    (laid : s.script.loadText.LaidOrNone s.rowWidth)
    (unplaced : s.wordTaken.place s.rowWidth s.script.loadWord = none) :
    completeLoading s = State.flagged .scriptFull { s with script := { s.script with
      load := .discarding, loadWord := [],
      stored := if s.script.loadText.rows = [] then s.script.stored else s.script.stored ++ [s.script.loadText],
      loadText := if s.script.loadText.rows = [] then s.script.loadText else Text.empty } } := by
  rw [completeLoading, if_neg (by simpa using word)]
  rw [State.wordTaken] at unplaced
  rw [unplaced, State.modScript, ScriptStore.fill, ScriptStore.storeLoading_of_laidOrNone laid]
  rfl

/-- Settles O21: by how the word fits the loading block; each case has one increase and one pair of limits. -/
theorem loadedWordFitsOrFills : Obligations.LoadedWordFitsOrFills := by
  intro s word laid w more opens fits
  by_cases rows : s.script.loadText.rows = []
  case pos =>
    have increase : more = s.wordTaken.openIncrease w := if_pos rows
    have opening : opens := .inl rows
    have limits : fits ↔ s.script.storedChars + s.wordTaken.openIncrease w ≤ storeCharacters ∧
        s.script.stored.length < storeBlocks := by
      simp [fits, opening, rows, increase, storeBlocks, storeCharacters]
    have placed := ScriptStore.place_opens (u := s.wordTaken) s.rowWidth w rows
    refine ⟨fun fit => ?_, fun unfit => completeLoading_filled word laid (placed.trans (if_neg (unfit ∘ limits.mpr)))⟩
    refine ⟨_, completeLoading_placed word (placed.trans (if_pos (limits.mp fit))), ?_, rfl, rfl, rfl, rfl,
      fun closed => absurd opening closed, fun _ => ⟨rfl, rfl, (if_pos rows).symm⟩⟩
    rw [increase]
    rfl
  case neg =>
    by_cases room : s.script.loadText.lastLength + 1 + w.length ≤ s.rowWidth
    case pos =>
      have increase : more = w.length + 1 := (if_neg rows).trans (if_pos room)
      have closed : ¬ opens := by rintro (none | ⟨-, tight⟩) <;> [exact rows none; omega]
      have limits : fits ↔ s.script.storedChars + (w.length + 1) ≤ 4096 := by simp [fits, closed, increase]
      have placed := ScriptStore.place_joins (u := s.wordTaken) rows (Text.fit_of_room room)
      refine ⟨fun fit => ?_, fun unfit => completeLoading_filled word laid (placed.trans (if_neg (unfit ∘ limits.mpr)))⟩
      refine ⟨_, completeLoading_placed word (placed.trans (if_pos (limits.mp fit))), ?_, rfl, rfl, rfl, rfl,
        fun _ => ⟨rfl, rfl, (if_pos room).symm⟩, fun opening => absurd opening closed⟩
      rw [increase]
      rfl
    case neg =>
      by_cases one : s.script.loadText.rows.length = 1
      case pos =>
        have increase : more = w.length := (if_neg rows).trans ((if_neg room).trans (if_pos one))
        have closed : ¬ opens := by rintro (none | ⟨two, -⟩) <;> [exact rows none; omega]
        have limits : fits ↔ s.script.storedChars + w.length ≤ 4096 := by simp [fits, closed, increase]
        have placed := ScriptStore.place_opensRow2 (u := s.wordTaken) rows
          (Text.fit_of_one_row (Nat.lt_of_not_le room) (Nat.lt_of_le_of_lt (Nat.le_of_eq one) Nat.one_lt_two))
        refine ⟨fun fit => ?_, fun unfit => completeLoading_filled word laid (placed.trans (if_neg (unfit ∘ limits.mpr)))⟩
        refine ⟨_, completeLoading_placed word (placed.trans (if_pos (limits.mp fit))), ?_, rfl, rfl, rfl, rfl,
          fun _ => ⟨rfl, rfl, (if_neg room).symm⟩, fun opening => absurd opening closed⟩
        rw [increase]
        rfl
      case neg =>
        have two : s.script.loadText.rows.length = 2 := (laid.resolve_left rows).1.resolve_left one
        have increase : more = s.wordTaken.openIncrease w := (if_neg rows).trans ((if_neg room).trans (if_neg one))
        have opening : opens := .inr ⟨two, Nat.lt_of_not_le room⟩
        have limits : fits ↔ s.script.storedChars + s.wordTaken.openIncrease w ≤ storeCharacters ∧
            (s.script.stored ++ [s.script.loadText]).length < storeBlocks := by
          simp [fits, opening, increase, rows, storeBlocks, storeCharacters]
        have placed := ScriptStore.place_full (u := s.wordTaken) laid rows
          (Text.fit_of_two_rows (Nat.lt_of_not_le room) (Nat.le_of_eq two.symm))
        refine ⟨fun fit => ?_, fun unfit => completeLoading_filled word laid (placed.trans (if_neg (unfit ∘ limits.mpr)))⟩
        refine ⟨_, completeLoading_placed word (placed.trans (if_pos (limits.mp fit))), ?_, rfl, rfl, rfl, rfl,
          fun closed => absurd opening closed, fun _ => ⟨rfl, rfl, (if_neg rows).symm⟩⟩
        rw [increase]
        rfl

/-! ### Text units while a script loads (R39, R41, R42) -/

/-- The store is all an act changed, but for SCRIPT_FULL. -/
def StoreOnly (s u : State) : Prop :=
  u = { s with script := u.script } ∨
    u = { s with script := u.script, report := { s.report with flags := s.report.flags.raise .scriptFull } }

theorem StoreOnly.refl (s : State) : StoreOnly s s := .inl rfl

theorem StoreOnly.modScript {s u : State} (only : StoreOnly s u) (f : ScriptStore → ScriptStore) :
    StoreOnly s (u.modScript f) := by
  rcases only with eq | eq
  · exact .inl (by rw [eq]; rfl)
  · exact .inr (by rw [eq]; rfl)

theorem completeLoading_storeOnly (s : State) : StoreOnly s (completeLoading s) := by
  rcases completeLoading_cases s with ⟨-, eq⟩ | ⟨-, u, -, eq⟩ | ⟨-, -, eq⟩
  · rw [eq]
    exact .refl s
  · rw [eq]
    exact (StoreOnly.refl s).modScript _
  · exact .inr (by rw [eq]; rfl)

theorem StoreOnly.addLoading {s u : State} (only : StoreOnly s u) (c : Byte) : StoreOnly s (addLoading c u) := by
  unfold Machine.addLoading
  split
  · exact only.modScript _
  · exact only

theorem storeCharacter_storeOnly (c : Byte) (s : State) : StoreOnly s (storeCharacter c s) := by
  unfold storeCharacter
  split
  · split
    · exact completeLoading_storeOnly s
    · split
      · exact (completeLoading_storeOnly s).addLoading c
      · exact (StoreOnly.refl s).addLoading c
  · exact .refl s

theorem storeEndBlock_storeOnly (s : State) : StoreOnly s (storeEndBlock s) := by
  unfold storeEndBlock
  split
  · exact (completeLoading_storeOnly s).modScript _
  · exact .refl s

theorem storeSpeaker_storeOnly (s : State) : StoreOnly s (storeSpeaker s) := by
  unfold storeSpeaker
  split
  · exact (storeEndBlock_storeOnly s).modScript _
  · exact .refl s

/-- The act of a text unit at a station whose text goes to the Script Store. -/
def storeUnit (i : Instr) (s : State) : State :=
  match i with
  | .character c => storeCharacter c s
  | .endBlock => storeEndBlock s
  | .speaker => storeSpeaker s
  | .retract => retractAct s
  | _ => s

theorem exec_storeUnit {i : Instr} {s : State} (taken : s.station.mode ≠ .resetting) (closed : s.pacing.command = none)
    (load : s.script.load ≠ .notLoading)
    (unit : i ∈ [.endBlock, .speaker, .retract] ∨ ∃ c, isCharacter c = true ∧ i = .character c) :
    exec i s = .next (finish (storeUnit i s)) := by
  have loading : s.loadingScript = true := s.loadingScript_iff.mpr load
  rcases unit with code | ⟨c, char, rfl⟩
  · simp only [List.mem_cons, List.not_mem_nil, or_false] at code
    rcases code with rfl | rfl | rfl
    · exact congrArg Host.Outcome.next ((actCode_closed taken closed).trans (congrArg finish (if_pos loading)))
    · exact congrArg Host.Outcome.next ((actCode_closed taken closed).trans (congrArg finish (if_pos loading)))
    · exact congrArg Host.Outcome.next (actCode_closed taken closed)
  · rw [exec_character_taken taken char, takeCharacter_closed closed, if_pos loading]
    rfl

theorem retractAct_loading {s : State} (load : s.script.load = .loading) :
    retractAct s = s.modScript ScriptStore.retracted := by
  rw [retractAct, load]

theorem retractAct_discarding {s : State} (load : s.script.load = .discarding) : retractAct s = s := by
  rw [retractAct, load]

theorem storeUnit_storeOnly (i : Instr) {s : State} (load : s.script.load ≠ .notLoading) : StoreOnly s (storeUnit i s) := by
  unfold storeUnit
  split
  · exact storeCharacter_storeOnly _ s
  · exact storeEndBlock_storeOnly s
  · exact storeSpeaker_storeOnly s
  · cases store : s.script.load with
    | notLoading => exact absurd store load
    | loading =>
      rw [retractAct_loading store]
      exact (StoreOnly.refl s).modScript _
    | discarding =>
      rw [retractAct_discarding store]
      exact .refl s
  · exact .refl s

theorem storeUnit_discarding (i : Instr) {s : State} (load : s.script.load = .discarding) : storeUnit i s = s := by
  have notLoading : s.script.load ≠ .loading := by simp [load]
  unfold storeUnit
  split
  · exact if_neg notLoading
  · exact if_neg notLoading
  · exact if_neg notLoading
  · exact retractAct_discarding load
  · rfl

theorem ScriptStore.retracted_word {u : ScriptStore} (word : u.loadWord ≠ []) : u.retracted = { u with loadWord := [] } :=
  if_pos (by simpa using word)

theorem ScriptStore.retracted_loadText {u : ScriptStore} (word : u.loadWord = []) (text : u.loadText.hasWord = true) :
    u.retracted = { u with
      loadText := u.loadText.retracted,
      loadMark := u.loadMark || (!u.loadText.retracted.hasWord && u.loadText.speaker),
      storedChars := u.storedChars - (u.loadText.count - u.loadText.retracted.count) } :=
  (if_neg (by simp [word])).trans (if_pos text)

theorem ScriptStore.retracted_stored {u : ScriptStore} {rest : List Text} {b : Text} (word : u.loadWord = [])
    (text : u.loadText.hasWord = false) (stored : u.stored = rest ++ [b]) :
    u.retracted = { u with
      stored := if b.retracted.hasWord = true then rest ++ [b.retracted] else rest,
      storedChars := u.storedChars - (b.count - b.retracted.count) } := by
  simp [ScriptStore.retracted, word, text, stored]

theorem ScriptStore.retracted_nothing {u : ScriptStore} (word : u.loadWord = []) (text : u.loadText.hasWord = false)
    (stored : u.stored = []) : u.retracted = u := by
  simp [ScriptStore.retracted, word, text, stored]

theorem storeEndBlock_loading {s : State} (load : s.script.load = .loading) :
    storeEndBlock s = if (completeLoading s).script.loadText.hasWord = true then
      { completeLoading s with script := { (completeLoading s).script with
        stored := (completeLoading s).script.stored ++ [(completeLoading s).script.loadText], loadText := Text.empty } }
      else completeLoading s := by
  rw [storeEndBlock, if_pos load, State.modScript, ScriptStore.storeLoading]
  split <;> rfl

theorem storeCharacter_joins {c : Byte} {s : State} (load : s.script.load = .loading) (other : c ≠ spaceByte)
    (room : s.script.loadWord.length < s.rowWidth) :
    storeCharacter c s = { s with script := { s.script with loadWord := s.script.loadWord ++ [c] } } := by
  rw [storeCharacter, if_pos load, if_neg other, if_neg (by omega), addLoading, if_pos load]
  rfl

theorem storeCharacter_space {s : State} (load : s.script.load = .loading) :
    storeCharacter spaceByte s = completeLoading s := (if_pos load).trans (if_pos rfl)

theorem storeCharacter_splits {c : Byte} {s : State} (load : s.script.load = .loading) (other : c ≠ spaceByte)
    (full : s.rowWidth ≤ s.script.loadWord.length) :
    storeCharacter c s = if (completeLoading s).script.load = .loading then
      { completeLoading s with script := { (completeLoading s).script with loadWord := [c] } } else completeLoading s := by
  rw [storeCharacter, if_pos load, if_neg other, if_pos full, addLoading]
  simp only [State.modScript, completeLoading_loadWord, List.nil_append]

/-- Settles O23: every text unit is `storeUnit`, which touches the store alone; then the unit's own equation. -/
theorem loadingTextGoesToStore : Obligations.LoadingTextGoesToStore := by
  refine ⟨fun i s taken closed load unit => ?storeOnly, fun s taken closed load => ?retract,
    fun s taken closed load => ?loading, fun i s taken closed load unit => ?discarding⟩
  case storeOnly =>
    exact ⟨_, exec_storeUnit taken closed load unit, storeUnit_storeOnly i load⟩
  case retract =>
    have act : exec .retract s = .next (finish { s with script := s.script.retracted }) := by
      rw [exec_storeUnit taken closed (by simp [load]) (.inl (by simp)), storeUnit, retractAct_loading load]
      rfl
    rw [act]
    refine ⟨fun word => ?_, fun word text => ?_, fun rest b word text stored => ?_, fun word text stored => ?_⟩
    · rw [ScriptStore.retracted_word word]
    · rw [ScriptStore.retracted_loadText word text]
    · rw [ScriptStore.retracted_stored word text stored]
    · rw [ScriptStore.retracted_nothing word text stored]
  case loading =>
    have act := fun i => exec_storeUnit (i := i) taken closed (show s.script.load ≠ .notLoading by simp [load])
    have placed : (if s.script.loadWord = [] then s else completeLoading s) = completeLoading s :=
      ite_eq_right_iff.mpr fun word => (completeLoading_of_loadWord_nil word).symm
    dsimp only
    rw [placed, ← storeEndBlock_loading load]
    refine ⟨fun c char other room => ?joins, ?space, fun c char other full => ?splits, act _ (.inl (by simp)), ?speaker⟩
    case joins => rw [act _ (.inr ⟨c, char, rfl⟩), storeUnit, storeCharacter_joins load other room]
    case space => rw [act _ (.inr ⟨_, rfl, rfl⟩), storeUnit, storeCharacter_space load]
    case splits => rw [act _ (.inr ⟨c, char, rfl⟩), storeUnit, storeCharacter_splits load other full]
    case speaker =>
      rw [act _ (.inl (by simp)), storeUnit, storeSpeaker, if_pos load]
      rfl
  case discarding =>
    rw [exec_storeUnit taken closed (by simp [load]) unit, storeUnit_discarding i load]

end Sys2Proof.Machine
end

section
/-! The floor (07): the codes that bid, yield and park, the waits, the view of peers' packets, and how the floor is gained and
left. -/

namespace Sys2Proof.Machine

/-! ### The floor beside the packets -/

/-- What a removal of packets does, it does whatever the floor. -/
theorem removeUnstarted_withFloor (p : PacketKind → Bool) (f : Floor) (s : State) :
    { removeUnstarted p s with floor := f } = removeUnstarted p { s with floor := f } := by
  unfold removeUnstarted
  rw [enterWaiting_eq, enterWaiting_eq]
  rfl

theorem setFloor_changed {f : FloorState} {s : State} (change : s.floor.state ≠ f) :
    setFloor f s = { s with floor := { s.floor with state := f, reportDue := true } } := by
  simp [setFloor, State.modFloor, change]

theorem setHolder_eq (h : Option Nat) (s : State) : setHolder h s = { s with floor := { s.floor with
    holder := h, reportDue := s.floor.reportDue || decide (s.floor.holder ≠ h) } } := rfl

theorem bid_of_idle {s : State} (idle : s.floor.state = .idle) : bid s = requestPacket (.take false) { s with floor :=
    { s.floor with state := .bidding, bidCount := 0, bidRunning := false, takeEchoed := false, reportDue := true } } := by
  rw [bid, setFloor_changed (by simp [State.modFloor, idle])]
  rfl

theorem enterYielding_of_live {s : State} (live : s.floor.state = .live) : enterYielding s = { s with floor :=
    { s.floor with state := .yielding, yieldCount := 0, yieldOwed := false, reportDue := true } } := by
  rw [enterYielding, setFloor_changed (by simp [State.modFloor, live])]
  rfl

theorem loseBid_of_bidding {s : State} (bidding : s.floor.state = .bidding) :
    loseBid s = pushReport .takeLost (removeUnstarted PacketKind.isTake { s with floor := s.floor.bidLost }) := by
  rw [loseBid, setFloor_changed (by simp [endBid_floor, bidding]), endBid_floor, endBid, removeUnstarted_withFloor]
  rfl

@[simp] theorem closeCommand_floor (s : State) : (closeCommand s).floor = s.floor := by simp

@[simp] theorem closeCommand_station (s : State) : (closeCommand s).station = s.station := by simp

/-! ### The floor codes (R116, R123, R124, R162) -/

theorem exec_take_taken {s : State} (taken : s.station.mode ≠ .resetting) :
    exec .take s = .next (finish (takeAct (closeCommand s))) := congrArg Host.Outcome.next (actCode_taken _ taken)

theorem exec_yield_taken {s : State} (taken : s.station.mode ≠ .resetting) :
    exec .yield s = .next (finish (yieldAct (closeCommand s))) := congrArg Host.Outcome.next (actCode_taken _ taken)

theorem exec_park_taken {s : State} (taken : s.station.mode ≠ .resetting) :
    exec .park s = .next (finish (parkCode (closeCommand s))) := congrArg Host.Outcome.next (actCode_taken _ taken)

theorem exec_unpark_taken {s : State} (taken : s.station.mode ≠ .resetting) :
    exec .unpark s = .next (finish (unparkCode (closeCommand s))) := congrArg Host.Outcome.next (actCode_taken _ taken)

/-- Settles O31: TAKE by the mode and the floor state, YIELD by the floor state. -/
theorem floorCodesBidAndYield : Obligations.FloorCodesBidAndYield := by
  intro s taken
  dsimp only
  rw [exec_take_taken taken, exec_yield_taken taken]
  refine ⟨fun active idle => ?bids, fun active hand => ?ignored, fun mode => ?refused, fun live => ?yields, fun other => ?kept⟩
  case bids =>
    rw [takeAct, if_pos (by simpa using active), if_pos (by simpa using idle), bid_of_idle (by simpa using idle),
      closeCommand_floor]
  case ignored => rw [takeAct, if_pos (by simpa using active), if_neg (by simpa using hand)]
  case refused => rw [takeAct, if_neg (by simpa using mode)]
  case yields =>
    rw [yieldAct, if_pos (by simpa using live), enterYielding_of_live (by simpa using live), closeCommand_floor]
  case kept => rw [yieldAct, if_neg (by simpa using other)]

theorem parkNow_eq (s : State) : parkNow s = { s with
    floor := { s.floor with parkOwed := false }, station := { s.station with mode := .parked } } := rfl

theorem parkCode_joining {s : State} (mode : s.station.mode = .joining) :
    parkCode s = { s with station := { s.station with parkRemembered := true } } := by
  rw [parkCode, mode]
  rfl

theorem parkCode_active {s : State} (mode : s.station.mode = .active) : parkCode s = parkActive s := by
  rw [parkCode, mode]

theorem parkCode_ignored {s : State} (mode : s.station.mode = .parked ∨ s.station.mode = .mute) : parkCode s = s := by
  rcases mode with mode | mode <;> rw [parkCode, mode]

theorem parkActive_idle {s : State} (idle : s.floor.state = .idle) : parkActive s = parkNow s := by
  rw [parkActive, idle]

theorem parkActive_live {s : State} (live : s.floor.state = .live) :
    parkActive s = { s with floor := { s.floor with
      state := .yielding, yieldCount := 0, yieldOwed := false, parkOwed := true, reportDue := true } } := by
  rw [parkActive, live, enterYielding_of_live live]
  rfl

theorem parkActive_deferred {s : State} (hand : s.floor.state = .bidding ∨ s.floor.state = .yielding) :
    parkActive s = { s with floor := { s.floor with parkOwed := true } } := by
  rcases hand with hand | hand <;> rw [parkActive, hand] <;> rfl

theorem unparkCode_joining {s : State} (mode : s.station.mode = .joining) :
    unparkCode s = { s with station := { s.station with parkRemembered := false } } := by
  rw [unparkCode, mode]
  rfl

theorem unparkCode_parked {s : State} (mode : s.station.mode = .parked) :
    unparkCode s = { s with station := { s.station with mode := .active } } := by
  rw [unparkCode, mode]
  rfl

theorem unparkCode_ignored {s : State} (mode : s.station.mode = .active ∨ s.station.mode = .mute) : unparkCode s = s := by
  rcases mode with mode | mode <;> rw [unparkCode, mode]

theorem joinDue_iff (s : State) : joinDue s = true ↔ s.station.mode = .joining ∧ 2 * s.fps ≤ s.station.joinCount := by
  simp [joinDue]

/-- Settles O32: the two codes mode by mode, with PARK in ACTIVE by the floor state; then the two waits, each due. -/
theorem parkFollowsMode : Obligations.ParkFollowsMode := by
  refine ⟨fun s taken => ?codes, fun s owed idle => ?deferred, fun s mode count => ?joined⟩
  case codes =>
    dsimp only
    rw [exec_park_taken taken, exec_unpark_taken taken]
    rw [← closeCommand_station s, ← closeCommand_floor s]
    refine ⟨fun joining => ⟨?_, ?_⟩, fun active => ⟨?_, fun idle => ?_, fun live => ?_, fun hand => ?_⟩,
      fun parked => ⟨?_, ?_⟩, fun mute => ⟨?_, ?_⟩⟩
    · rw [parkCode_joining joining]
    · rw [unparkCode_joining joining]
    · rw [unparkCode_ignored (.inl active)]
    · rw [parkCode_active active, parkActive_idle idle, parkNow_eq]
    · rw [parkCode_active active, parkActive_live live]
    · rw [parkCode_active active, parkActive_deferred hand]
    · rw [parkCode_ignored (.inl parked)]
    · rw [unparkCode_parked parked]
    · rw [parkCode_ignored (.inr mute)]
    · rw [unparkCode_ignored (.inr mute)]
  case deferred => exact congrArg Host.Outcome.next (if_pos (parkDue_iff.mpr ⟨owed, idle⟩))
  case joined =>
    exact congrArg (fun u => Host.Outcome.next (finish u)) (if_pos ((joinDue_iff s).mpr ⟨mode, count⟩))

/-! ### The waits (R118, R121) -/

theorem deadlineDue_iff (s : State) : deadlineDue s = true ↔
    s.floor.state = .yielding ∧ s.floor.yieldOwed = false ∧ s.pacing.active.y ≤ s.floor.yieldCount := by
  simp [deadlineDue, and_assoc]

theorem bidDue_iff (s : State) : bidDue s = true ↔
    s.floor.state = .bidding ∧ s.floor.bidRunning = true ∧ s.pacing.active.y + s.fps ≤ s.floor.bidCount := by
  simp [bidDue, and_assoc]

/-- Reports are queued whatever the floor. -/
theorem pushReports_withFloor (l : List Report) (f : Floor) (s : State) :
    { pushReports l s with floor := f } = pushReports l { s with floor := f } := by
  rw [pushReports_eq l s, pushReports_eq l { s with floor := f },
    pushReports_report_congr l (s := { s with floor := f }) (t := s) rfl]

/-- Settles O33: each wait is due, and its act is the one R29 and R118 name. -/
theorem floorWaitsExpire : Obligations.FloorWaitsExpire := by
  refine ⟨fun s yielding free waited => ?deadline, fun s bidding running waited => ?bid⟩
  case deadline =>
    refine congrArg (fun u => Host.Outcome.next (finish u)) ?_
    rw [deadlineAct, if_pos ((deadlineDue_iff s).mpr ⟨yielding, free, waited⟩), yieldDiscard]
    exact (pushReports_withFloor _ _ _).trans (by simp; rfl)
  case bid =>
    exact congrArg (fun u => Host.Outcome.next (finish u)) (if_pos ((bidDue_iff s).mpr ⟨bidding, running, waited⟩))

/-! ### The view (R110 to R114) -/

theorem peerDue_iff (p : Nat) (s : State) : peerDue p s = true ↔
    (1 ≤ p ∧ p ≤ 16) ∧ p ≠ s.own ∧ (peerEntry p s).presence = .present ∧ 3 * s.fps ≤ (peerEntry p s).unheard := by
  simp [peerDue, isStation, and_assoc]

theorem silenceView_own {p : Nat} {s : State} (holder : s.floor.holder = some p) (next : s.floor.successor = some s.own) :
    silenceView p s = holdFloor { s with floor := { s.floor with successor := none } } :=
  (if_pos holder).trans (if_pos next)

theorem silenceView_peer {p : Nat} {s : State} (holder : s.floor.holder = some p) (other : s.floor.successor ≠ some s.own)
    (next : s.floor.successor ≠ some p) :
    silenceView p s = { s with floor := { s.floor with
      holder := s.floor.successor, successor := none, reportDue := true } } := by
  refine (if_pos holder).trans ((if_neg other).trans ?_)
  simp [setHolder_eq, setSuccessor, State.modFloor, holder, Ne.symm next]

theorem silenceView_successor {p : Nat} {s : State} (holder : s.floor.holder ≠ some p) (next : s.floor.successor = some p) :
    silenceView p s = { s with floor := { s.floor with successor := none } } :=
  (if_neg holder).trans (if_pos next)

theorem silenceView_neither {p : Nat} {s : State} (holder : s.floor.holder ≠ some p) (next : s.floor.successor ≠ some p) :
    silenceView p s = s :=
  (if_neg holder).trans (if_neg next)

/-- Settles O34: by the part the silent peer had in the view. -/
theorem silentPeerLosesFloor : Obligations.SilentPeerLosesFloor := by
  intro p s low high peer present unheard
  dsimp only
  have act : peerSilentAct p s = silenceView p { s with line := { s.line with
      peers := s.line.peers.set (p - 1) { peerEntry p s with presence := .silent } } } :=
    if_pos ((peerDue_iff p s).mpr ⟨⟨low, high⟩, peer, present, unheard⟩)
  have finished {u : State} (view : peerSilentAct p s = u) : exec (.peerSilent p) s = .next (finish u) :=
    congrArg (fun u => Host.Outcome.next (finish u)) view
  exact ⟨fun holder next => finished (act.trans (silenceView_own holder next)),
    fun holder other next => finished (act.trans (silenceView_peer holder other next)),
    fun holder next => finished (act.trans (silenceView_successor holder next)),
    fun holder next => finished (act.trans (silenceView_neither holder next))⟩

/-- The view after a plain TAKE of station `b` (R110). -/
def Floor.takenBy (b : Nat) (f : Floor) : Floor :=
  if f.holder = some b ∨ f.successor = some b then f
  else if f.holder = none ∧ f.successor = none then { f with holder := some b, reportDue := true }
  else if f.successor = none then { f with successor := some b }
  else f

theorem yieldsIfLive_eq (s : State) :
    (if s.floor.state = .live then enterYielding s else s) = { s with floor :=
      if s.floor.state = .live then
        { s.floor with state := .yielding, yieldCount := 0, yieldOwed := false, reportDue := true } else s.floor } := by
  split
  · rw [enterYielding_of_live ‹_›]
  · rfl

theorem Floor.takenBy_state (b : Nat) (f : Floor) : (f.takenBy b).state = f.state := by
  unfold Floor.takenBy
  repeat' split
  all_goals rfl

theorem peerPlainTake_eq (b : Nat) (s : State) :
    peerPlainTake b s = { s with floor :=
      if s.floor.state = .live then
        { (s.floor.takenBy b) with state := .yielding, yieldCount := 0, yieldOwed := false, reportDue := true }
      else (s.floor.takenBy b) } := by
  have view : peerPlainTake b s = if ({ s with floor := s.floor.takenBy b } : State).floor.state = .live then
      enterYielding { s with floor := s.floor.takenBy b } else { s with floor := s.floor.takenBy b } := by
    unfold peerPlainTake takeOutcome Floor.takenBy
    by_cases known : s.floor.holder = some b ∨ s.floor.successor = some b
    · simp only [if_pos known]
    · by_cases vacant : s.floor.holder = none ∧ s.floor.successor = none
      · simp [vacant, setHolder_eq]
      · by_cases free : s.floor.successor = none
        · simp only [if_neg known, if_neg vacant, if_pos free]
          rfl
        · simp only [if_neg known, if_neg vacant, if_neg free]
  rw [view, yieldsIfLive_eq]
  simp only [Floor.takenBy_state]

/-- Settles O35: the view by R110's table, and a LIVE station enters YIELDING. -/
theorem plainTakeClaimsView : Obligations.PlainTakeClaimsView := by
  intro p s delivered
  refine congrArg (fun u => Host.Outcome.next (finish u)) ?_
  rw [hear_delivered delivered, peerPlainTake_eq]
  rfl

theorem yieldedTo_eq (q : Option Nat) (s : State) :
    yieldedTo q s = if ∃ k ∈ q, (peerEntry k s).presence = .silent then none else q := by
  cases q <;> simp [yieldedTo]

theorem yieldView_own {q : Option Nat} {s : State} (own : yieldedTo q s = some s.own) :
    yieldView false q s = holdFloor { s with floor := { s.floor with successor := none } } := by
  rw [yieldView, if_neg Bool.false_ne_true]
  exact if_pos own

/-- The view after a YIELD that gives the floor to `h`. -/
def State.givenTo (h : Option Nat) (s : State) : State :=
  { s with floor := { s.floor with
    holder := h, successor := none, reportDue := s.floor.reportDue || decide (s.floor.holder ≠ h) } }

theorem yieldView_off {q : Option Nat} {s : State} (other : yieldedTo q s ≠ some s.own)
    (off : s.floor.state = .idle ∨ (s.floor.state = .bidding ∧ s.floor.takeEchoed = false)) :
    yieldView false q s = s.givenTo (yieldedTo q s) := by
  rw [yieldView, if_neg Bool.false_ne_true]
  refine (if_neg other).trans ?_
  rcases off with idle | ⟨bidding, unechoed⟩
  · simp [setHolder, setSuccessor, State.modFloor, State.givenTo, idle]
  · simp [setHolder, setSuccessor, State.modFloor, State.givenTo, bidding, unechoed]

theorem yieldView_lost {q : Option Nat} {s : State} (other : yieldedTo q s ≠ some s.own) (bidding : s.floor.state = .bidding)
    (echoed : s.floor.takeEchoed = true) : yieldView false q s = loseBid (s.givenTo (yieldedTo q s)) := by
  rw [yieldView, if_neg Bool.false_ne_true]
  refine (if_neg other).trans ?_
  simp [setHolder, setSuccessor, State.modFloor, State.givenTo, bidding, echoed]

theorem yieldView_left {q : Option Nat} {s : State} (other : yieldedTo q s ≠ some s.own)
    (floor : s.floor.state = .live ∨ s.floor.state = .yielding) :
    yieldView false q s = leaveFloor (s.givenTo (yieldedTo q s)) := by
  rw [yieldView, if_neg Bool.false_ne_true]
  refine (if_neg other).trans ?_
  rcases floor with floor | floor <;> simp [setHolder, setSuccessor, State.modFloor, State.givenTo, floor]

/-- Settles O37: by the station the YIELD gives the floor to, then by the floor state. -/
theorem yieldPacketPassesFloor : Obligations.YieldPacketPassesFloor := by
  intro p q s delivered
  dsimp only
  have act : hear p (.yield q) (yieldView false q) s = yieldView false q (s.hearing p) := hear_delivered delivered
  have finished {u : State} (view : yieldView false q (s.hearing p) = u) : exec (.yieldPacket p q) s = .next (finish u) :=
    congrArg (fun u => Host.Outcome.next (finish u)) (act.trans view)
  rw [← yieldedTo_eq]
  exact ⟨fun own => finished (yieldView_own own), fun other off => finished (yieldView_off other off),
    fun other bidding echoed => finished ((yieldView_lost other bidding echoed).trans (loseBid_of_bidding bidding)),
    fun other floor => finished (yieldView_left other floor)⟩

/-! ### Gaining the floor (R109, R118, R124) -/

theorem becomeLive_off {s : State} (off : s.floor.state ≠ .live) :
    becomeLive s = removeUnstarted PacketKind.isTake { s with
      floor := { s.floor with
        state := if s.floor.parkOwed = true then FloorState.yielding else .live,
        yieldCount := if s.floor.parkOwed = true then 0 else s.floor.yieldCount,
        yieldOwed := if s.floor.parkOwed = true then false else s.floor.yieldOwed,
        bidRunning := false, takeEchoed := false, reportDue := true },
      timer := { s.timer with pace := .normal } } := by
  have begun : endBid ((setFloor .live s).modTimer fun t => { t with pace := .normal }) =
      removeUnstarted PacketKind.isTake { s with
        floor := { s.floor with state := .live, bidRunning := false, takeEchoed := false, reportDue := true },
        timer := { s.timer with pace := .normal } } := by
    rw [setFloor_changed off]
    rfl
  unfold becomeLive
  dsimp only
  rw [begun]
  by_cases park : s.floor.parkOwed = true
  · rw [if_pos (by simpa using park), enterYielding_of_live (by simp), removeUnstarted_withFloor]
    simp [park]
  · rw [if_neg (by simpa using park)]
    simp [park]

theorem holdFloor_gained {s : State} (gains : s.floor.state = .bidding ∨ (s.floor.state = .idle ∧ s.station.mode = .active)) :
    holdFloor s = becomeLive (setHolder (some s.own) s) := if_pos gains

theorem holdFloor_held {s : State} (floor : s.floor.state = .live ∨ s.floor.state = .yielding) :
    holdFloor s = setHolder (some s.own) s := by
  rw [holdFloor, if_neg (by rcases floor with floor | floor <;> simp [floor]), if_pos (State.onFloor_iff.mpr floor)]

theorem holdFloor_refused {s : State} (idle : s.floor.state = .idle) (mode : s.station.mode ≠ .active) :
    holdFloor s = setHolder none s := by
  rw [holdFloor, if_neg (by simp [idle, mode]), if_neg (by simp [State.onFloor, idle])]

/-! ### Leaving the floor (R75) -/

/-- The packets queued and waiting. -/
def State.packets (s : State) : List QPacket := s.line.queue ++ s.line.waiting

/-- A packet that stands after a removal stood before it, and is not of a kind removed unless it has started. -/
theorem mem_packets_removeUnstarted {p : PacketKind → Bool} {s : State} {q : QPacket}
    (stands : q ∈ (removeUnstarted p s).packets) : q ∈ s.packets ∧ (q.sent = none → p q.kind = false) := by
  rw [State.packets, removeUnstarted, enterWaiting_line, LineUnit.entered_packets] at stands
  rcases List.mem_append.mp stands with queued | waits
  · obtain ⟨mem, kept⟩ := List.mem_filter.mp queued
    refine ⟨List.mem_append_left _ mem, fun unsent => ?_⟩
    simpa [QPacket.started, unsent] using kept
  · obtain ⟨mem, kept⟩ := List.mem_filter.mp waits
    exact ⟨List.mem_append_right _ mem, fun _ => by simpa using kept⟩

theorem State.packets_congr {s t : State} (line : s.line = t.line) : s.packets = t.packets := by
  rw [State.packets, State.packets, line]

theorem plannedFrom_all (l : List Claim) : plannedFrom (fun _ => true) l = l.filter fun c => decide (c.state = .planned) := by
  induction l with
  | nil => rfl
  | cons c l ih =>
    by_cases planned : c.state = .planned
    · simp [plannedFrom, Claim.isPlanned, planned]
      rfl
    · simp [plannedFrom, Claim.isPlanned, planned, ih]

theorem notPlannedFrom_all (l : List Claim) :
    notPlannedFrom (fun _ => true) l = l.filter fun c => decide (c.state ≠ .planned) := by
  induction l with
  | nil => rfl
  | cons c l ih =>
    by_cases planned : c.state = .planned
    · simp [notPlannedFrom, Claim.isPlanned, planned]
    · simp [notPlannedFrom, Claim.isPlanned, planned, ih]

theorem dropPlanned_all_claims (s : State) :
    (dropPlanned (fun _ => true) s).claims = s.claims.filter fun c => decide (c.state ≠ .planned) := by
  simp [dropPlanned, removePlanned, notPlannedFrom_all]

theorem mem_packets_dropPlanned {s : State} {q : QPacket} (stands : q ∈ (dropPlanned (fun _ => true) s).packets) :
    q ∈ s.packets ∧ (q.sent = none → ∀ c ∈ s.claims, c.state = .planned → q.kind ≠ .cue c.seq) := by
  rw [dropPlanned, State.packets_congr (s := pushReports _ _) (t := removePlanned (fun _ => true) s) (by simp), removePlanned] at stands
  obtain ⟨mem, kept⟩ := mem_packets_removeUnstarted stands
  refine ⟨mem, fun unsent c listed planned kind => ?_⟩
  have gone := kept unsent
  rw [isCueOfAny, List.any_eq_false] at gone
  exact gone c (by rw [plannedFrom_all]; simp [listed, planned]) (PacketKind.isCueOf_iff.mpr kind)

theorem lateRevisions_cons (c : Claim) (l : List Claim) (s : State) :
    lateRevisions (c :: l) s =
      lateRevisions l (if c.revision.isSome then pushReport (.late (some c.seq)) (dropRevision c.seq s) else s) := rfl

theorem dropRevision_claims (seq : Byte) (s : State) :
    (dropRevision seq s).claims = s.claims.map fun d => if d.seq = seq then { d with revision := none } else d := by
  simp [dropRevision, updateClaim]

theorem lateRevisions_claims (l : List Claim) (s : State) :
    (lateRevisions l s).claims = s.claims.map fun d =>
      if ∃ c ∈ l, c.revision.isSome = true ∧ d.seq = c.seq then { d with revision := none } else d := by
  induction l generalizing s with
  | nil => simp [lateRevisions]
  | cons c l ih =>
    rw [lateRevisions_cons, ih]
    split
    · rename_i revised
      have dropped : (pushReport (.late (some c.seq)) (dropRevision c.seq s)).claims = (dropRevision c.seq s).claims := by simp
      rw [dropped, dropRevision_claims, List.map_map]
      refine List.map_congr_left fun d _ => ?_
      by_cases own : d.seq = c.seq <;> simp [own, revised]
    · rename_i plain
      refine List.map_congr_left fun d _ => ?_
      simp [plain]

/-- With every claim of the list given, every revision goes. -/
theorem lateRevisions_claims_self (s : State) :
    (lateRevisions s.claims s).claims = s.claims.map fun c => { c with revision := none } := by
  rw [lateRevisions_claims]
  refine List.map_congr_left fun d listed => ?_
  cases held : d.revision with
  | none =>
    have same : d = { d with revision := none } := by rw [← held]
    rw [← same, ite_self]
  | some t => exact if_pos ⟨d, listed, by simp [held], rfl⟩

theorem lateRevisions_report (l : List Claim) (s : State) :
    (lateRevisions l s).report = (pushReports
      ((l.filter fun c => decide (c.revision ≠ none)).map fun c => .late (some c.seq)) s).report := by
  induction l generalizing s with
  | nil => rfl
  | cons c l ih =>
    rw [lateRevisions_cons, ih]
    cases held : c.revision with
    | none => simp [held]
    | some t =>
      simp only [Option.isSome_some, if_true, held, ne_eq, reduceCtorEq, not_false_eq_true, decide_true, List.filter_cons_of_pos,
        List.map_cons, pushReports]
      exact pushReports_report_congr _ (by simp [pushReport, State.modReport])

theorem mem_packets_lateRevisions {l : List Claim} {s : State} {q : QPacket} (stands : q ∈ (lateRevisions l s).packets) :
    q ∈ s.packets ∧ (q.sent = none → ∀ c ∈ l, c.revision ≠ none → q.kind ≠ .revise c.seq) := by
  induction l generalizing s with
  | nil => exact ⟨stands, fun _ c none => absurd none List.not_mem_nil⟩
  | cons c l ih =>
    rw [lateRevisions_cons] at stands
    obtain ⟨stands, kept⟩ := ih stands
    split at stands
    · rw [State.packets_congr (s := pushReport _ _) (t := dropRevision c.seq s) (by simp), dropRevision] at stands
      obtain ⟨mem, other⟩ := mem_packets_removeUnstarted stands
      refine ⟨mem, fun unsent d listed revised kind => ?_⟩
      rcases List.mem_cons.mp listed with rfl | listed
      · have := other unsent
        rw [PacketKind.isReviseOf_iff.mpr kind] at this
        cases this
      · exact kept unsent d listed revised kind
    · rename_i plain
      refine ⟨stands, fun unsent d listed revised kind => ?_⟩
      rcases List.mem_cons.mp listed with rfl | listed
      · exact plain (Option.isSome_iff_ne_none.mpr revised)
      · exact kept unsent d listed revised kind

theorem pushReports_append (k l : List Report) (s : State) : pushReports (k ++ l) s = pushReports l (pushReports k s) := by
  induction k generalizing s with
  | nil => rfl
  | cons r k ih => exact ih _

/-- The station off the floor with its YIELD removed, its claims still to be dropped. -/
def State.offFloor (s : State) : State :=
  removeUnstarted PacketKind.isYield (setFloor .idle (s.modFloor fun u => { u with yieldOwed := false }))

theorem leaveFloor_eq (s : State) : leaveFloor s =
    lateRevisions (dropPlanned (fun _ => true) s.offFloor).claims (dropPlanned (fun _ => true) s.offFloor) := rfl

theorem State.offFloor_claims (s : State) : s.offFloor.claims = s.claims := by simp [State.offFloor]

theorem leaveFloor_claims (s : State) : (leaveFloor s).claims =
    (s.claims.filter fun c => decide (c.state ≠ .planned)).map (fun c => { c with revision := none }) := by
  rw [leaveFloor_eq, lateRevisions_claims_self, dropPlanned_all_claims, s.offFloor_claims]

theorem leaveFloor_report (s : State) : (leaveFloor s).report = (pushReports
    (((s.claims.filter fun c => decide (c.state = .planned)).map fun c => .dropped .yield (some c.seq)) ++
      ((s.claims.filter fun c => decide (c.state ≠ .planned ∧ c.revision ≠ none)).map fun c => .late (some c.seq))) s).report := by
  rw [leaveFloor_eq, lateRevisions_report, dropPlanned_all_claims, s.offFloor_claims, pushReports_append, List.filter_filter]
  simp only [← Bool.decide_and, and_comm]
  refine pushReports_report_congr _ ?_
  rw [dropPlanned, s.offFloor_claims, plannedFrom_all]
  exact pushReports_report_congr _ (by simp [removePlanned, State.offFloor])

theorem mem_packets_leaveFloor {s : State} {q : QPacket} (stands : q ∈ (leaveFloor s).packets) (unsent : q.sent = none) :
    q.kind ≠ .yield ∧ ∀ c ∈ s.claims, (c.state = .planned → q.kind ≠ .cue c.seq) ∧
      (c.state ≠ .planned → c.revision ≠ none → q.kind ≠ .revise c.seq) := by
  rw [leaveFloor_eq] at stands
  obtain ⟨stands, notRevise⟩ := mem_packets_lateRevisions stands
  obtain ⟨stands, notCue⟩ := mem_packets_dropPlanned stands
  obtain ⟨-, notYield⟩ := mem_packets_removeUnstarted stands
  rw [dropPlanned_all_claims, s.offFloor_claims] at notRevise
  rw [s.offFloor_claims] at notCue
  refine ⟨fun kind => ?_, fun c listed => ⟨notCue unsent c listed, fun sent => notRevise unsent c (by simp [listed, sent])⟩⟩
  have := notYield unsent
  rw [kind] at this
  cases this

/-- Settles O38: the three outcomes of `holdFloor`, and `leaveFloor` as the floor state set, the PLANNED claims dropped and the
revisions ended LATE, each with what it does to claims, reports and packets. -/
theorem floorIsGainedAndLeft : Obligations.FloorIsGainedAndLeft := by
  intro s
  refine ⟨fun gains => ?gained, fun floor => ?held, fun idle mode => ?refused, leaveFloor_floor s, leaveFloor_claims s,
    leaveFloor_report s, fun q stands unsent => mem_packets_leaveFloor stands unsent⟩
  case gained =>
    have off : (setHolder (some s.own) s).floor.state ≠ .live := by
      rcases gains with bidding | ⟨idle, -⟩ <;> simp [setHolder, State.modFloor, *]
    rw [holdFloor_gained gains, becomeLive_off off]
    rfl
  case held => rw [holdFloor_held floor, setHolder_eq]
  case refused => rw [holdFloor_refused idle mode, setHolder_eq]

end Sys2Proof.Machine
end

section
/-! What the end of an act leaves (R50, R154, R163), and what it does for a station that can neither attempt, bid nor yield. -/

namespace Sys2Proof.Machine

/-! ### What every part of the end of an act leaves -/

/-- The fields that no part of the end of an act touches beside the units it leaves whole. -/
structure EndKeeps (s t : State) : Prop where
  number : t.item.number = s.item.number
  lastBoundary : t.item.lastBoundary = s.item.lastBoundary
  idle : t.line.idle = s.line.idle
  peers : t.line.peers = s.line.peers
  lastSender : t.line.lastSender = s.line.lastSender
  holding : t.pacing.holding = s.pacing.holding
  command : t.pacing.command = s.pacing.command

theorem EndKeeps.refl (s : State) : EndKeeps s s := ⟨rfl, rfl, rfl, rfl, rfl, rfl, rfl⟩

theorem EndKeeps.trans {s t u : State} (first : EndKeeps s t) (second : EndKeeps t u) : EndKeeps s u where
  number := second.number.trans first.number
  lastBoundary := second.lastBoundary.trans first.lastBoundary
  idle := second.idle.trans first.idle
  peers := second.peers.trans first.peers
  lastSender := second.lastSender.trans first.lastSender
  holding := second.holding.trans first.holding
  command := second.command.trans first.command

/-- An act beside the item, the line and the pacing set. -/
theorem EndKeeps.of_units {s t : State} (item : t.item = s.item) (line : t.line = s.line) (pacing : t.pacing = s.pacing) :
    EndKeeps s t := by
  refine ⟨?_, ?_, ?_, ?_, ?_, ?_, ?_⟩ <;> simp [item, line, pacing]

theorem enterWaiting_endKeeps (s : State) : EndKeeps s (enterWaiting s) := by
  rw [enterWaiting_eq]
  exact ⟨rfl, rfl, rfl, rfl, rfl, rfl, rfl⟩

theorem requestPacket_endKeeps (k : PacketKind) (s : State) : EndKeeps s (requestPacket k s) := by
  have line : (s.line.asked k).idle = s.line.idle ∧ (s.line.asked k).peers = s.line.peers ∧
      (s.line.asked k).lastSender = s.line.lastSender := by
    unfold LineUnit.asked
    split <;> exact ⟨rfl, rfl, rfl⟩
  obtain ⟨idle, peers, lastSender⟩ := line
  rw [requestPacket_eq]
  exact ⟨rfl, rfl, idle, peers, lastSender, rfl, rfl⟩

theorem enforceLimits_endKeeps (s : State) : EndKeeps s (enforceLimits s) := by
  rw [enforceLimits_eq]
  split
  · exact .refl s
  · exact ⟨rfl, rfl, rfl, rfl, rfl, rfl, rfl⟩

theorem reflectAtBlock_endKeeps (s : State) : EndKeeps s (reflectAtBlock s) := by
  unfold reflectAtBlock
  split
  · exact EndKeeps.trans (t := s.modPacing PacingSet.applyAtBlock) ⟨rfl, rfl, rfl, rfl, rfl, rfl, rfl⟩
      (enforceLimits_endKeeps _)
  · exact .refl s

/-- What an attempt does to the text and the claims: the head block may leave, and PLANNED claims are added at the end. -/
structure Attempts (s t : State) : Prop where
  text : ∃ k, t.text = { s.text with queue := s.text.queue.drop k }
  claims : ∃ planned, t.claims = s.claims ++ planned ∧ ∀ c ∈ planned, c.state = .planned

theorem Attempts.of_units {s t : State} (text : t.text = s.text) (claims : t.claims = s.claims) : Attempts s t :=
  ⟨⟨0, text⟩, ⟨[], by simp [claims], by simp⟩⟩

theorem Attempts.trans {s t u : State} (first : Attempts s t) (second : Attempts t u) : Attempts s u := by
  obtain ⟨⟨j, text⟩, ⟨early, claims, earlyPlanned⟩⟩ := first
  obtain ⟨⟨k, text'⟩, ⟨late, claims', latePlanned⟩⟩ := second
  refine ⟨⟨j + k, by rw [text', text, List.drop_drop]⟩, ⟨early ++ late, by rw [claims', claims, List.append_assoc], ?_⟩⟩
  intro c mem
  rcases List.mem_append.mp mem with mem | mem
  · exact earlyPlanned c mem
  · exact latePlanned c mem

theorem planBlock_attempts (b : Block) (s : State) : Attempts s (planBlock b s) := by
  rcases planBlock_cases b s with holds | drops | ⟨pace, c, planned, plans⟩
  · rw [holds]
    exact .of_units rfl rfl
  · rw [drops]
    exact ⟨⟨1, by simp [takeHead]⟩, ⟨[], by simp [takeHead], by simp⟩⟩
  · rw [plans]
    exact ⟨⟨1, by simp [takeHead]⟩, ⟨[c], by simp, by simp [planned]⟩⟩

theorem planBlock_endKeeps (b : Block) (s : State) : EndKeeps s (planBlock b s) := by
  rcases planBlock_cases b s with holds | drops | ⟨pace, c, -, plans⟩
  · rw [holds]
    exact .of_units rfl rfl rfl
  · rw [drops]
    exact .of_units (by simp [takeHead]) (by simp [takeHead]) (by simp [takeHead])
  · rw [plans]
    exact EndKeeps.trans (.of_units (by simp [takeHead]) (by simp [takeHead]) (by simp [takeHead]))
      (requestPacket_endKeeps _ _)

theorem attempt_leaves (s : State) : EndKeeps s (attempt s) ∧ Attempts s (attempt s) := by
  unfold attempt
  split
  · exact ⟨(reflectAtBlock_endKeeps s).trans (planBlock_endKeeps _ _),
      (Attempts.of_units (by simp) (by simp)).trans (planBlock_attempts _ (reflectAtBlock s))⟩
  · exact ⟨.refl s, .of_units rfl rfl⟩

theorem attempts_leaves (k : Nat) (s : State) : EndKeeps s (attempts k s) ∧ Attempts s (attempts k s) := by
  induction k generalizing s with
  | zero => exact ⟨.refl s, .of_units rfl rfl⟩
  | succ k ih =>
    unfold attempts
    split
    · obtain ⟨keeps, tries⟩ := attempt_leaves s
      obtain ⟨keeps', tries'⟩ := ih (attempt s)
      exact ⟨keeps.trans keeps', tries.trans tries'⟩
    · exact ⟨.refl s, .of_units rfl rfl⟩

theorem queueYield_endKeeps (s : State) : EndKeeps s (queueYield s) := by
  unfold queueYield
  split
  · exact requestPacket_endKeeps _ s
  · exact .refl s

theorem autoTake_endKeeps (s : State) : EndKeeps s (autoTake s) := by
  unfold autoTake
  split
  · unfold bid
    exact EndKeeps.trans (t := setFloor .bidding (s.modFloor _)) (.of_units rfl rfl rfl) (requestPacket_endKeeps _ _)
  · exact .refl s

theorem drainAct_endKeeps (s : State) : EndKeeps s (drainAct s) := by
  unfold drainAct
  split
  · exact ⟨rfl, rfl, rfl, rfl, rfl, rfl, rfl⟩
  · exact .refl s

/-- The state of `settle` before the last of its parts, the end of RESETTING. -/
def beforeDrain (s : State) : State :=
  let s := enterWaiting (parkAct s)
  autoTake (queueYield (oweYield (attempts s.text.queue.length s)))

theorem settle_eq (s : State) : settle s = drainAct (beforeDrain s) := rfl

theorem beforeDrain_leaves (s : State) : EndKeeps s (beforeDrain s) ∧ Attempts s (beforeDrain s) := by
  unfold beforeDrain
  generalize entered : enterWaiting (parkAct s) = u
  have first : EndKeeps s u ∧ Attempts s u := by
    rw [← entered]
    exact ⟨EndKeeps.trans (.of_units (by simp) (by simp) (by simp)) (enterWaiting_endKeeps _),
      .of_units (by simp) (by simp)⟩
  obtain ⟨keeps, tries⟩ := attempts_leaves u.text.queue.length u
  refine ⟨?_, (first.2.trans tries).trans (.of_units (by simp) (by simp))⟩
  exact ((((first.1.trans keeps).trans (.of_units (by simp) (by simp) (by simp))).trans (queueYield_endKeeps _))).trans
    (autoTake_endKeeps _)

theorem finish_endKeeps (s : State) : EndKeeps s (finish s) :=
  ((beforeDrain_leaves s).1.trans (drainAct_endKeeps _)).trans (.of_units (by simp [finish, settle_eq])
    (by simp [finish, settle_eq]) (by simp [finish, settle_eq]))

theorem finish_text (s : State) : ∃ k, (finish s).text = { s.text with queue := s.text.queue.drop k } := by
  obtain ⟨k, text⟩ := (beforeDrain_leaves s).2.text
  exact ⟨k, by rw [← text]; simp [finish, settle_eq]⟩

/-! ### Outside RESETTING -/

theorem parkAct_mode {s : State} (mode : s.station.mode ≠ .resetting) : (parkAct s).station.mode ≠ .resetting := by
  unfold parkAct
  split
  · simp [parkNow]
  · exact mode

theorem beforeDrain_station (s : State) : (beforeDrain s).station = (parkAct s).station := by simp [beforeDrain]

theorem drainAct_running {s : State} (mode : s.station.mode ≠ .resetting) : drainAct s = s :=
  if_neg fun due => mode (drained_mode s due)

theorem settle_running {s : State} (mode : s.station.mode ≠ .resetting) : settle s = beforeDrain s :=
  drainAct_running (s := beforeDrain s) (by rw [beforeDrain_station]; exact parkAct_mode mode)

theorem parkAct_holder (s : State) : (parkAct s).floor.holder = s.floor.holder := by
  unfold parkAct
  split <;> rfl

theorem autoTake_holder (s : State) : (autoTake s).floor.holder = s.floor.holder := by
  unfold autoTake
  split
  · rw [bid_floor]
  · rfl

theorem beforeDrain_holder (s : State) : (beforeDrain s).floor.holder = s.floor.holder := by
  simp [beforeDrain, autoTake_holder, oweYield_floor, parkAct_holder]

theorem beforeDrain_map (s : State) : (beforeDrain s).map = s.map := by simp [beforeDrain]

/-- Settles O51: every part of `settle` but the end of RESETTING keeps the map, the holder and the claims there were; the
attempts alone take blocks and add claims. -/
theorem finishKeepsRest : Obligations.FinishKeepsRest := by
  intro s
  obtain ⟨number, lastBoundary, idle, peers, lastSender, holding, command⟩ := finish_endKeeps s
  refine ⟨⟨by simp, by simp, by simp, by simp, by simp, number, lastBoundary, idle, peers, lastSender, holding, command⟩,
    fun running => ?_, finish_text s, finish_of_settled⟩
  have settled := settle_running running
  refine ⟨?_, ?_, ?_⟩
  · rw [← beforeDrain_map s, ← settled]
    simp [finish]
  · rw [finish, floorReport_floor, settled]
    exact beforeDrain_holder s
  · obtain ⟨planned, claims, states⟩ := (beforeDrain_leaves s).2.claims
    exact ⟨planned, by rw [← claims, ← settled]; simp [finish], states⟩

end Sys2Proof.Machine
end

section
/-! A forced take, STATUS, and RESET (R83, R113, R163, R167). -/

namespace Sys2Proof.Machine

/-! ### The end of an act off the floor -/

theorem parkAct_state (s : State) : (parkAct s).floor.state = s.floor.state ∧
    (parkAct s).floor.yieldOwed = s.floor.yieldOwed ∧ (parkAct s).floor.successor = s.floor.successor := by
  unfold parkAct
  split <;> exact ⟨rfl, rfl, rfl⟩

theorem parkAct_active {s : State} (active : (parkAct s).station.mode = .active) : s.station.mode = .active := by
  unfold parkAct at active
  split at active
  · simp [parkNow] at active
  · exact active

/-- A station off the floor that neither owes a yield nor takes of itself only parks and lets requests in. -/
theorem beforeDrain_idle {s : State} (idle : s.floor.state = .idle) (owed : s.floor.yieldOwed = false)
    (noTake : s.floor.holder ≠ none ∨ s.station.mode ≠ .active) : beforeDrain s = enterWaiting (parkAct s) := by
  obtain ⟨state, owes, -⟩ := parkAct_state s
  have idle' : (enterWaiting (parkAct s)).floor.state = .idle := by simp [state, idle]
  have noAttempt : attemptDue (enterWaiting (parkAct s)) = false := by
    simp [attemptDue, gateOpen, State.onFloor, state, idle]
  have take : autoTakeDue (enterWaiting (parkAct s)) = false := by
    rw [← Bool.not_eq_true, autoTakeDue_iff]
    rintro ⟨-, active, -, -, none⟩
    rcases noTake with holder | mode
    · exact holder (by simpa [parkAct_holder] using none)
    · exact mode (parkAct_active (by simpa using active))
  have yields : queueYield (enterWaiting (parkAct s)) = enterWaiting (parkAct s) := by
    rw [queueYield, if_neg (by simp [owes, owed])]
  unfold beforeDrain
  dsimp only
  rw [attempts_of_not_due _ noAttempt, oweYield, if_neg (by simp [state, idle]), yields, autoTake, if_neg (by simp [take])]

/-! ### CUTs that find room (R81, R155) -/

theorem packets_length_removeUnstarted (p : PacketKind → Bool) (s : State) :
    (removeUnstarted p s).packets.length ≤ s.packets.length := by
  rw [State.packets, removeUnstarted, enterWaiting_line, LineUnit.entered_packets, State.packets, List.length_append,
    List.length_append]
  exact Nat.add_le_add (List.length_filter_le ..) (List.length_filter_le ..)

theorem State.queue_le_packets (s : State) : s.line.queue.length ≤ s.packets.length := by simp [State.packets]

theorem queueCut_of_room (seq : Byte) (off : Frame) (mark : ResetMark) {s : State} (room : s.line.queue.length < 8) :
    queueCut seq off mark s =
      s.modLine fun l => { l with queue := l.queue ++ [{ QPacket.fresh (.cut seq off) with mark := mark }] } := by
  rw [queueCut, if_neg]
  rw [show transmitCapacity = 8 from rfl]
  omega

theorem withdraw_of_room (seq : Byte) (off : Frame) (mark : ResetMark) {s : State} (room : s.packets.length < 8) :
    withdraw seq off mark s = (dropRevision seq (updateClaim seq (fun c => { c with withdrawal := some off }) s)).modLine
      fun l => { l with queue := l.queue ++ [{ QPacket.fresh (.cut seq off) with mark := mark }] } := by
  refine queueCut_of_room _ _ _ ?_
  refine Nat.lt_of_le_of_lt (State.queue_le_packets _) (Nat.lt_of_le_of_lt (packets_length_removeUnstarted _ _) ?_)
  exact room

theorem withdraw_claims {seq : Byte} {off : Frame} {mark : ResetMark} {s : State} (room : s.packets.length < 8) :
    (withdraw seq off mark s).claims =
      s.claims.map fun d => if d.seq = seq then { d with withdrawal := some off, revision := none } else d := by
  rw [withdraw_of_room _ _ _ room]
  change (dropRevision seq _).claims = _
  rw [dropRevision_claims]
  simp only [updateClaim, State.setClaims, List.map_map]
  refine List.map_congr_left fun d _ => ?_
  by_cases own : d.seq = seq <;> simp [own]

theorem withdraw_packets_length {seq : Byte} {off : Frame} {mark : ResetMark} {s : State} (room : s.packets.length < 8) :
    (withdraw seq off mark s).packets.length ≤ s.packets.length + 1 := by
  have dropped := packets_length_removeUnstarted (PacketKind.isReviseOf seq)
    (updateClaim seq (fun c => { c with revision := none }) (updateClaim seq (fun c => { c with withdrawal := some off }) s))
  rw [withdraw_of_room _ _ _ room]
  have same : (updateClaim seq (fun c => { c with revision := none })
    (updateClaim seq (fun c => { c with withdrawal := some off }) s)).packets = s.packets := rfl
  rw [same] at dropped
  simp only [State.packets, dropRevision, State.modLine_line, List.length_append, List.length_singleton] at dropped ⊢
  omega

theorem withdraw_cut {seq : Byte} {off : Frame} {mark : ResetMark} {s : State} (room : s.packets.length < 8) :
    ∃ q ∈ (withdraw seq off mark s).line.queue, q.kind = .cut seq off := by
  rw [withdraw_of_room _ _ _ room]
  exact ⟨_, List.mem_append_right _ (List.mem_singleton_self _), rfl⟩

/-- A packet not of the kind removed keeps its place in the queue. -/
theorem mem_queue_removeUnstarted {p : PacketKind → Bool} {s : State} {q : QPacket} (queued : q ∈ s.line.queue)
    (other : p q.kind = false) : q ∈ (removeUnstarted p s).line.queue := by
  rw [removeUnstarted, enterWaiting_line]
  exact List.mem_append_left _ (List.mem_filter.mpr ⟨queued, by simp [other]⟩)

theorem mem_queue_withdraw {seq seq' : Byte} {off off' : Frame} {mark : ResetMark} {s : State} {q : QPacket}
    (room : s.packets.length < 8) (queued : q ∈ s.line.queue) (cut : q.kind = .cut seq' off') :
    q ∈ (withdraw seq off mark s).line.queue := by
  rw [withdraw_of_room _ _ _ room]
  exact List.mem_append_left _ (mem_queue_removeUnstarted queued (by rw [cut]; rfl))

/-! ### The CLAIMED claims withdrawn by a forced take (R83) -/

/-- The claim is one that `withdrawClaimed` withdraws. -/
def Claim.Withdraws (c : Claim) : Prop := c.state = .claimed ∧ c.withdrawal = none

theorem withdrawClaimed_cons (c : Claim) (l : List Claim) (s : State) :
    withdrawClaimed (c :: l) s =
      withdrawClaimed l (if c.state = .claimed ∧ c.withdrawal = none then withdraw c.seq c.showAt .none s else s) := rfl

/-- A property kept by each withdrawal that finds room is kept by all. -/
theorem withdrawClaimed_induct {P : State → Prop} {l : List Claim} {s : State} (room : s.packets.length + l.length ≤ 8)
    (start : P s) (act : ∀ c ∈ l, c.Withdraws → ∀ u, u.packets.length < 8 → P u → P (withdraw c.seq c.showAt .none u)) :
    P (withdrawClaimed l s) := by
  induction l generalizing s with
  | nil => exact start
  | cons c l ih =>
    rw [withdrawClaimed_cons]
    have here : s.packets.length < 8 := by
      simp only [List.length_cons] at room
      omega
    have later := fun d mem => act d (List.mem_cons_of_mem c mem)
    split
    · have grown := withdraw_packets_length (seq := c.seq) (off := c.showAt) (mark := .none) here
      exact ih (by simp only [List.length_cons] at room; omega) (act c List.mem_cons_self ‹_› s here start) later
    · exact ih (by simp only [List.length_cons] at room; omega) start later

theorem withdrawClaimed_stays {l : List Claim} {s : State} {d : Claim} (room : s.packets.length + l.length ≤ 8)
    (listed : d ∈ s.claims) (other : ∀ c ∈ l, c.Withdraws → d.seq ≠ c.seq) : d ∈ (withdrawClaimed l s).claims :=
  withdrawClaimed_induct (P := fun u => d ∈ u.claims) room listed fun c mem withdraws u here listed => by
    rw [withdraw_claims here]
    exact List.mem_map.mpr ⟨d, listed, if_neg (other c mem withdraws)⟩

theorem withdrawClaimed_states {l : List Claim} {s : State} (room : s.packets.length + l.length ≤ 8)
    (sent : ∀ d ∈ s.claims, d.state ≠ .planned) : ∀ d ∈ (withdrawClaimed l s).claims, d.state ≠ .planned :=
  withdrawClaimed_induct (P := fun u => ∀ d ∈ u.claims, d.state ≠ .planned) room sent fun c _ _ u here sent d listed => by
    rw [withdraw_claims here] at listed
    obtain ⟨e, known, rfl⟩ := List.mem_map.mp listed
    have := sent e known
    split <;> exact this

theorem withdrawClaimed_cut_stays {l : List Claim} {s : State} {q : QPacket} {seq : Byte} {off : Frame}
    (room : s.packets.length + l.length ≤ 8) (queued : q ∈ s.line.queue) (cut : q.kind = .cut seq off) :
    q ∈ (withdrawClaimed l s).line.queue :=
  withdrawClaimed_induct (P := fun u => q ∈ u.line.queue) room queued fun _ _ _ _ here queued =>
    mem_queue_withdraw here queued cut

theorem withdrawClaimed_text {l : List Claim} {s : State} (room : s.packets.length + l.length ≤ 8) :
    (withdrawClaimed l s).text = s.text :=
  withdrawClaimed_induct (P := fun u => u.text = s.text) room rfl fun _ _ _ u here text => by
    rw [withdraw_of_room _ _ _ here, ← text]
    simp [dropRevision, updateClaim]

theorem withdrawClaimed_withdrawn {l : List Claim} {s : State} {c : Claim} (room : s.packets.length + l.length ≤ 8)
    (apart : (l.map Claim.seq).Nodup) (mem : c ∈ l) (listed : c ∈ s.claims) (withdraws : c.Withdraws) :
    { c with withdrawal := some c.showAt, revision := none } ∈ (withdrawClaimed l s).claims ∧
      ∃ q ∈ (withdrawClaimed l s).line.queue, q.kind = .cut c.seq c.showAt := by
  induction l generalizing s with
  | nil => cases mem
  | cons d l ih =>
    obtain ⟨first, rest⟩ := List.nodup_cons.mp apart
    have here : s.packets.length < 8 := by
      simp only [List.length_cons] at room
      omega
    have grown := withdraw_packets_length (seq := d.seq) (off := d.showAt) (mark := .none) here
    simp only [List.length_cons] at room
    rw [withdrawClaimed_cons]
    rcases List.mem_cons.mp mem with rfl | mem
    · rw [if_pos (show c.state = .claimed ∧ c.withdrawal = none from withdraws)]
      obtain ⟨q, queued, cut⟩ := withdraw_cut (seq := c.seq) (off := c.showAt) (mark := .none) here
      refine ⟨withdrawClaimed_stays (by omega) ?_ ?_, q, withdrawClaimed_cut_stays (by omega) queued cut, cut⟩
      · rw [withdraw_claims here]
        exact List.mem_map.mpr ⟨c, listed, if_pos rfl⟩
      · exact fun e mem _ same => first (List.mem_map.mpr ⟨e, mem, same.symm⟩)
    · have other : c.seq ≠ d.seq := fun same => first (List.mem_map.mpr ⟨c, mem, same⟩)
      split
      · refine ih (by omega) rest mem ?_
        rw [withdraw_claims here]
        exact List.mem_map.mpr ⟨c, listed, if_neg other⟩
      · exact ih (by omega) rest mem listed

/-! ### A peer's forced TAKE (R113) -/

theorem forcedTakeView_off {b : Nat} {s : State} (peer : b ≠ s.own)
    (off : s.floor.state = .idle ∨ (s.floor.state = .bidding ∧ s.floor.takeEchoed = false)) :
    forcedTakeView b s = s.givenTo (some b) := by
  unfold forcedTakeView
  refine (if_neg peer).trans ?_
  rcases off with idle | ⟨bidding, unechoed⟩
  · simp [setHolder, setSuccessor, State.modFloor, State.givenTo, idle]
  · simp [setHolder, setSuccessor, State.modFloor, State.givenTo, bidding, unechoed]

theorem forcedTakeView_lost {b : Nat} {s : State} (peer : b ≠ s.own) (bidding : s.floor.state = .bidding)
    (echoed : s.floor.takeEchoed = true) : forcedTakeView b s = loseBid (s.givenTo (some b)) := by
  unfold forcedTakeView
  refine (if_neg peer).trans ?_
  simp [setHolder, setSuccessor, State.modFloor, State.givenTo, bidding, echoed]

theorem forcedTakeView_onFloor {b : Nat} {s : State} (peer : b ≠ s.own)
    (floor : s.floor.state = .live ∨ s.floor.state = .yielding) :
    forcedTakeView b s = forcedOffClaims (s.givenTo (some b)).offFloor := by
  unfold forcedTakeView
  refine (if_neg peer).trans ?_
  rcases floor with floor | floor <;>
    simp [setHolder, setSuccessor, State.modFloor, State.givenTo, State.offFloor, floor]

theorem State.offFloor_floor (s : State) : s.offFloor.floor = { s.floor with
    state := .idle, yieldOwed := false, reportDue := s.floor.reportDue || decide (s.floor.state ≠ .idle) } := by
  simp [State.offFloor, setFloor]
  rfl

theorem State.offFloor_packets_length (s : State) : s.offFloor.packets.length ≤ s.packets.length :=
  packets_length_removeUnstarted _ _

theorem dropPlanned_packets_length (p : Claim → Bool) (s : State) : (dropPlanned p s).packets.length ≤ s.packets.length := by
  rw [State.packets_congr (s := dropPlanned p s) (t := removePlanned p s) (by simp [dropPlanned])]
  exact packets_length_removeUnstarted _ _

/-- The claims after a forced take whose CUTs all find room (R83). -/
theorem forcedOffClaims_claims {s : State} (room : s.packets.length + s.claims.length ≤ 8)
    (apart : (s.claims.map Claim.seq).Nodup) :
    (forcedOffClaims s).text = s.text ∧ (∀ c ∈ (forcedOffClaims s).claims, c.state ≠ .planned) ∧
    (∀ c ∈ s.claims, (c.state = .onAir ∨ c.state = .sending) → c ∈ (forcedOffClaims s).claims) ∧
    (∀ c ∈ s.claims, c.Withdraws → { c with withdrawal := some c.showAt, revision := none } ∈ (forcedOffClaims s).claims ∧
      ∃ q ∈ (forcedOffClaims s).line.queue, q.kind = .cut c.seq c.showAt) := by
  have claims := dropPlanned_all_claims s
  have packets := dropPlanned_packets_length (fun _ => true) s
  have text : (dropPlanned (fun _ => true) s).text = s.text := by simp
  unfold forcedOffClaims
  dsimp only
  generalize dropPlanned (fun _ => true) s = u at claims packets text
  have fewer : u.claims.length ≤ s.claims.length := by
    rw [claims]
    exact List.length_filter_le ..
  have mem {c : Claim} (listed : c ∈ s.claims) (sent : c.state ≠ .planned) : c ∈ u.claims := by
    rw [claims]
    exact List.mem_filter.mpr ⟨listed, by simpa using sent⟩
  have known {c : Claim} (listed : c ∈ u.claims) : c ∈ s.claims ∧ c.state ≠ .planned := by
    rw [claims] at listed
    obtain ⟨listed, sent⟩ := List.mem_filter.mp listed
    exact ⟨listed, by simpa using sent⟩
  have room : u.packets.length + u.claims.length ≤ 8 := by omega
  have apart' : (u.claims.map Claim.seq).Nodup := by
    rw [claims]
    exact apart.sublist (List.filter_sublist.map _)
  refine ⟨(withdrawClaimed_text room).trans text, withdrawClaimed_states room fun c listed => (known listed).2, fun c listed state => ?stays,
    fun c listed withdraws => ?withdrawn⟩
  case stays =>
    refine withdrawClaimed_stays room (mem listed (by rcases state with state | state <;> simp [state])) ?_
    rintro d listed' ⟨claimed, -⟩ same
    have := List.inj_on_of_nodup_map apart listed (known listed').1 same
    subst this
    rcases state with state | state <;> simp [state] at claimed
  case withdrawn =>
    have sent : c.state ≠ .planned := by simp [withdraws.1]
    exact withdrawClaimed_withdrawn room apart' (mem listed sent) (mem listed sent) withdraws

theorem enterWaiting_mem_queue {s : State} {q : QPacket} (queued : q ∈ s.line.queue) : q ∈ (enterWaiting s).line.queue := by
  rw [enterWaiting_line]
  exact List.mem_append_left _ queued

/-- The end of an act for a station off the floor that sees a peer hold it. -/
theorem finish_idle {s : State} (idle : s.floor.state = .idle) (owed : s.floor.yieldOwed = false)
    (holder : s.floor.holder ≠ none) (mode : s.station.mode ≠ .resetting) :
    (finish s).floor = { (parkAct s).floor with reportDue := false } ∧ (finish s).text = s.text ∧
      (finish s).claims = s.claims ∧ ∀ q ∈ s.line.queue, q ∈ (finish s).line.queue := by
  have settled : settle s = enterWaiting (parkAct s) := by
    rw [settle_running mode, beforeDrain_idle idle owed (.inl holder)]
  have line : (finish s).line = (enterWaiting (parkAct s)).line := by rw [← settled]; simp [finish]
  refine ⟨?_, ?_, ?_, fun q queued => ?_⟩
  · rw [finish, floorReport_floor, settled]
    simp
  · simp [finish, settled]
  · simp [finish, settled]
  · rw [line]
    exact enterWaiting_mem_queue (by simpa using queued)

/-- Settles O36: by the floor state; on the floor the claims by `forcedOffClaims_claims`, which the end of the act keeps. -/
theorem forcedTakeTakesFloor : Obligations.ForcedTakeTakesFloor := by
  intro p s delivered
  dsimp only
  have peer : p ≠ s.own := delivered.2.1
  have finished {u : State} (view : forcedTakeView p (s.hearing p) = u) : exec (.forcedTake p) s = .next (finish u) :=
    congrArg (fun u => Host.Outcome.next (finish u)) ((hear_delivered delivered).trans view)
  refine ⟨fun off => finished (forcedTakeView_off peer off),
    fun bidding echoed => finished ((forcedTakeView_lost (s := s.hearing p) peer bidding echoed).trans
      (loseBid_of_bidding bidding)),
    fun floor active room apart => ⟨_, finished (forcedTakeView_onFloor peer floor), ?_⟩⟩
  have taken := State.offFloor_floor ((s.hearing p).givenTo (some p))
  have packets : ((s.hearing p).givenTo (some p)).offFloor.packets.length ≤ s.packets.length :=
    State.offFloor_packets_length ((s.hearing p).givenTo (some p))
  have claims : ((s.hearing p).givenTo (some p)).offFloor.claims = s.claims :=
    State.offFloor_claims ((s.hearing p).givenTo (some p))
  have text : ((s.hearing p).givenTo (some p)).offFloor.text = s.text := by simp [State.offFloor, State.givenTo]
  have mode : ((s.hearing p).givenTo (some p)).offFloor.station.mode = .active := by
    simp [State.offFloor, State.givenTo, active]
  generalize ((s.hearing p).givenTo (some p)).offFloor = v at taken packets claims text mode
  have count : s.packets.length = s.line.queue.length + s.line.waiting.length := by simp [State.packets]
  obtain ⟨text', sent, stay, withdrawn⟩ := forcedOffClaims_claims (s := v) (by rw [claims]; omega) (by rwa [claims])
  have floor' : (forcedOffClaims v).floor = v.floor := forcedOffClaims_floor (by simp [taken])
  have mode' : (forcedOffClaims v).station.mode ≠ .resetting := by simp [mode]
  generalize forcedOffClaims v = w at text' sent stay withdrawn floor' mode'
  rw [claims] at stay withdrawn
  have view : w.floor.state = .idle ∧ w.floor.holder = some p ∧ w.floor.successor = none ∧ w.floor.yieldOwed = false := by
    rw [floor', taken]
    exact ⟨rfl, rfl, rfl, rfl⟩
  obtain ⟨idle, holder, successor, owed⟩ := view
  obtain ⟨finished, keptText, keptClaims, keptQueue⟩ := finish_idle idle owed (by simp [holder]) mode'
  obtain ⟨state, owes, next⟩ := parkAct_state w
  rw [finished, keptText, keptClaims]
  refine ⟨state.trans idle, (parkAct_holder w).trans holder, next.trans successor, owes.trans owed, text'.trans text, sent, stay,
    fun c listed claimed free => ?_⟩
  obtain ⟨listed', q, queued, cut⟩ := withdrawn c listed ⟨claimed, free⟩
  exact ⟨listed', q, keptQueue q queued, cut⟩

/-! ### STATUS and the report lines (R165, R167) -/

theorem statusAct_eq (s : State) :
    statusAct s = { s with report := { s.report with
      queue := (if 32 ≤ s.report.queue.length then s.report.queue.eraseIdx 1 else s.report.queue) ++ [.status
        { mode := s.station.mode, floor := s.floor.state, holder := s.floor.holder, pace := s.timer.pace,
          time := s.ref.status, locked := decide (s.ref.goodPulses = 8), n := s.ref.n, blocks := s.text.queue.length,
          packets := s.line.queue.length, claims := s.claims.length,
          notOnAir := (s.claims.filter fun c => decide (c.state ≠ .onAir)).length,
          entries := (List.range s.displayRows).map fun i =>
            (s.map.filter fun c => decide (c.low ≤ i + 1 ∧ i + 1 < c.low + c.count)).length,
          item := s.item.number,
          flags := if 32 ≤ s.report.queue.length then s.report.flags.raise .reportLost else s.report.flags }],
      flags := Flags.clear } } := by
  have room : makeReportRoom s.report = { s.report with
      queue := if 32 ≤ s.report.queue.length then s.report.queue.eraseIdx 1 else s.report.queue,
      flags := if 32 ≤ s.report.queue.length then s.report.flags.raise .reportLost else s.report.flags } := by
    by_cases full : 32 ≤ s.report.queue.length
    · rw [if_pos full, if_pos full]
      exact if_pos full
    · rw [if_neg full, if_neg full]
      exact if_neg full
  have fields : statusFields s = { statusFields s with
      notOnAir := (s.claims.filter fun c => decide (c.state ≠ .onAir)).length,
      entries := (List.range s.displayRows).map fun i =>
        (s.map.filter fun c => decide (c.low ≤ i + 1 ∧ i + 1 < c.low + c.count)).length } := by
    simp [statusFields, notOnAir, rowCounts, rowEntries, Cue.covers]
  have filled : statusAct s = { s with report := { makeReportRoom s.report with
      queue := (makeReportRoom s.report).queue ++ [.status { statusFields s with flags := (makeReportRoom s.report).flags }],
      flags := .clear } } := rfl
  rw [filled, fields, room]
  rfl

/-- Settles O39: the report as STATUS fills it, and the head line by whether there is one. -/
theorem statusIsReported : Obligations.StatusIsReported := by
  refine ⟨fun s taken => ?status, fun s => ⟨fun r rest queue => ?sent, fun queue => ?none⟩⟩
  case status =>
    refine congrArg Host.Outcome.next ((plainCode_taken _ taken).trans ?_)
    rw [statusAct_eq]
    cases command : s.pacing.command with
    | none =>
      rw [closeCommand_of_none command]
    | some cs =>
      have closed : closeCommand s = State.flagged .textError { s with pacing := { s.pacing with command := none } } :=
        if_pos (by simp [command])
      rw [closed]
      rfl
  case sent =>
    refine congrArg Host.Outcome.next ?_
    simp only [State.modReport, queue]
  case none =>
    refine congrArg Host.Outcome.next ?_
    simp only [State.modReport, queue]

/-! ### RESET (R89, R163) -/

/-- A CUT queued on entry into RESETTING. -/
def QPacket.entryCut (p : Byte × Frame) : QPacket := { QPacket.fresh (.cut p.1 p.2) with mark := .entryCut }

/-- The CUTs of entry into RESETTING that all find room stand in the queue in order; nothing else but claims changes. -/
theorem queueResetCuts_of_room (l : List (Byte × Frame)) {s : State} (room : s.line.queue.length + l.length ≤ 8) :
    queueResetCuts l s = { s with
      line := { s.line with queue := s.line.queue ++ l.map QPacket.entryCut }, claims := (queueResetCuts l s).claims } := by
  induction l generalizing s with
  | nil => simp [queueResetCuts]
  | cons p l ih =>
    obtain ⟨seq, off⟩ := p
    simp only [List.length_cons] at room
    unfold queueResetCuts
    rw [queueCut_of_room _ _ _ (s := updateClaim seq _ s) (by simp only [updateClaim, State.setClaims]; omega)]
    refine (ih ?_).trans ?_
    · simp only [updateClaim, State.setClaims, State.modLine, List.length_append, List.length_singleton]
      omega
    · simp [updateClaim, State.setClaims, State.modLine, QPacket.entryCut]

theorem queueResetCuts_echoed (l : List (Byte × Frame)) {s : State} (room : s.line.queue.length + l.length ≤ 8)
    (echoed : ∀ c ∈ s.claims, c.echoed = true) : ∀ c ∈ (queueResetCuts l s).claims, c.echoed = true := by
  induction l generalizing s with
  | nil => exact echoed
  | cons p l ih =>
    obtain ⟨seq, off⟩ := p
    simp only [List.length_cons] at room
    unfold queueResetCuts
    rw [queueCut_of_room _ _ _ (s := updateClaim seq _ s) (by simp only [updateClaim, State.setClaims]; omega)]
    refine ih ?_ fun c listed => ?_
    · simp only [updateClaim, State.setClaims, State.modLine, List.length_append, List.length_singleton]
      omega
    · obtain ⟨d, known, rfl⟩ := List.mem_map.mp (show c ∈ s.claims.map _ from listed)
      have := echoed d known
      split <;> exact this

end Sys2Proof.Machine
end

section
/-! RESET, entered and ended (R89, R163). -/

namespace Sys2Proof.Machine

/-- The CUTs that entry into RESETTING queues, for the claims as the emptied queue leaves them. -/
def State.resetCuts (s : State) : List (Byte × Frame) := (resetLine s).claims.filterMap (resetCut s)

theorem State.resetCuts_length (s : State) : s.resetCuts.length ≤ s.claims.length := by
  refine (List.length_filterMap_le ..).trans ?_
  simp [resetLine, State.setClaims, State.modLine]

/-- Every claim sent and not withdrawing gets its CUT (R89). -/
theorem State.mem_resetCuts {s : State} {c : Claim} (listed : c ∈ s.claims) (free : c.withdrawal = none)
    (sent : c.state ≠ .planned) : (c.seq, if c.state = .onAir then s.plus s.n 4 else c.showAt) ∈ s.resetCuts := by
  refine List.mem_filterMap.mpr ⟨c, List.mem_map.mpr ⟨c, listed, ?_⟩, ?_⟩
  · rw [← free]
    split <;> rfl
  · cases state : c.state with
    | planned => exact absurd state sent
    | sending => simp [resetCut, state]
    | claimed => simp [resetCut, state, free]
    | onAir => simp [resetCut, state, free]

/-- The station on entry into RESETTING, its line emptied and the claims that stay marked, before the CUTs are queued. -/
def State.resetMarked (s : State) : State :=
  let u := (s.modStation fun u => { u with mode := .resetting, resetCount := 0, parkRemembered := false }).modReport
    ReportUnit.entered
  (resetLine u).setClaims (resetKept (resetLine u).claims)

theorem resetBegun_eq (s : State) : resetBegun s = (((queueResetCuts s.resetCuts s.resetMarked).modText
    BlockBuilder.emptied).modScript ScriptStore.reset).modTimer fun _ => { pace := .normal, hold := false } := rfl

section
variable {s : State} (room : (s.line.queue.filter QPacket.started).length + s.claims.length ≤ 8)
include room

theorem resetMarked_room : s.resetMarked.line.queue.length + s.resetCuts.length ≤ 8 := by
  have length : s.resetMarked.line.queue.length = (s.line.queue.filter QPacket.started).length := by
    simp [State.resetMarked, resetLine, LineUnit.emptied, State.setClaims, State.modLine, State.modReport, State.modStation]
  have cuts := s.resetCuts_length
  omega

/-- Entry into RESETTING with room for every CUT: the CUTs follow the packet in transmission, if any. -/
theorem resetBegun_line : (resetBegun s).line =
    { s.line.emptied with queue := s.line.emptied.queue ++ s.resetCuts.map QPacket.entryCut } := by
  rw [resetBegun_eq]
  exact congrArg State.line (queueResetCuts_of_room s.resetCuts (resetMarked_room room))

theorem resetBegun_text : (resetBegun s).text = s.text.emptied := by
  rw [resetBegun_eq]
  exact congrArg (fun u => u.text.emptied) (queueResetCuts_of_room s.resetCuts (resetMarked_room room))

theorem resetBegun_item : (resetBegun s).item = s.item := by
  rw [resetBegun_eq]
  have same := congrArg State.item (queueResetCuts_of_room s.resetCuts (resetMarked_room room))
  exact same

theorem resetBegun_report : (resetBegun s).report = s.report.entered := by
  rw [resetBegun_eq]
  exact congrArg State.report (queueResetCuts_of_room s.resetCuts (resetMarked_room room))

theorem resetBegun_echoed : ∀ c ∈ (resetBegun s).claims, c.echoed = true := by
  rw [resetBegun_eq]
  refine queueResetCuts_echoed s.resetCuts (resetMarked_room room) fun c listed => ?_
  obtain ⟨d, known, rfl⟩ := List.mem_map.mp (show c ∈ resetKept _ from listed)
  exact (List.mem_filter.mp known).2

end

theorem resetBegun_rest (s : State) : (resetBegun s).station.mode = .resetting ∧ (resetBegun s).script = s.script.reset ∧
    (resetBegun s).timer = { pace := .normal, hold := false } ∧ (resetBegun s).pacing = s.pacing ∧
    (resetBegun s).ref = s.ref ∧ (resetBegun s).straps = s.straps := by
  rw [resetBegun_eq]
  simp [State.resetMarked]

theorem resetItem_number (s : State) : (resetItem s).item.number = s.item.number := by
  unfold resetItem
  split <;> rfl

theorem settle_resetting {s : State} (mode : s.station.mode = .resetting) (idle : s.floor.state = .idle)
    (owed : s.floor.yieldOwed = false) (park : s.floor.parkOwed = false) (waiting : s.line.waiting = []) :
    settle s = drainAct s := by
  rw [settle_eq, beforeDrain_idle idle owed (.inr (by simp [mode])), parkAct, if_neg (by simp [parkDue, park]),
    enterWaiting_of_entered (.inl waiting)]

/-- A FLOOR report into a short queue loses no line. -/
theorem floorReport_flags {s : State} (short : s.report.queue.length < 32) : (floorReport s).report.flags = s.report.flags := by
  have room : makeReportRoom s.report = s.report := if_neg (by simpa [reportCapacity] using short)
  unfold floorReport
  split
  · simp [pushReport, State.modReport, State.modFloor, room]
  · rfl

theorem endResetting_eq (s : State) : endResetting s = { s with
    claims := [], map := [],
    floor := { s.floor with
      holder := none, successor := none, reportDue := s.floor.reportDue || decide (s.floor.holder ≠ none) },
    line := { s.line with
      waiting := [], queue := (s.line.queue.filter QPacket.started).map fun q => { q with mark := .inFlight } },
    station := { s.station with mode := .joining, joinCount := 0 } } := rfl

theorem exec_reset_entered {s : State} (running : s.station.mode ≠ .resetting) (heard : s.station.mode ≠ .mute) :
    exec .reset s = .next (finish (enterResetting s)) := (if_neg running).trans (if_neg heard)

/-- What the end of RESETTING, if it is due, leaves. -/
theorem drainAct_cases (s : State) : drainAct s = s ∨ (drained s = true ∧ drainAct s = endResetting s) := by
  unfold drainAct
  split
  · exact .inr ⟨‹_›, rfl⟩
  · exact .inl rfl

theorem resetCountDue_iff (s : State) :
    resetCountDue s = true ↔ s.station.mode = .resetting ∧ 2 * s.fps ≤ s.station.resetCount := by
  simp [resetCountDue]

/-- What entry into RESETTING leaves of the units the Line Interface and the claims do not share. -/
theorem enterResetting_units {s : State} (room : (s.line.queue.filter QPacket.started).length + s.claims.length ≤ 8) :
    (enterResetting s).station.mode = .resetting ∧ (enterResetting s).text = s.text.emptied ∧
    (enterResetting s).script = s.script.reset ∧ (enterResetting s).pacing = s.pacing.reset ∧
    (enterResetting s).timer = { pace := .normal, hold := false } ∧ (enterResetting s).item.number = s.item.number ∧
    (enterResetting s).report = s.report.entered := by
  obtain ⟨mode, script, timer, pacing, -⟩ := resetBegun_rest s
  rw [enterResetting_eq]
  refine ⟨by simpa using mode, ?_, ?_, ?_, ?_, ?_, ?_⟩
  · simpa using resetBegun_text room
  · simpa using script
  · simp [pacing]
  · simpa using timer
  · rw [resetItem_number]
    simp [resetBegun_item room]
  · simpa using resetBegun_report room

theorem enterResetting_line {s : State} (room : (s.line.queue.filter QPacket.started).length + s.claims.length ≤ 8) :
    (enterResetting s).line = { s.line.emptied with queue := s.line.emptied.queue ++ s.resetCuts.map QPacket.entryCut } := by
  rw [enterResetting_eq]
  simpa using resetBegun_line room

theorem enterResetting_echoed {s : State} (room : (s.line.queue.filter QPacket.started).length + s.claims.length ≤ 8) :
    ∀ c ∈ (enterResetting s).claims, c.echoed = true := by
  rw [enterResetting_eq]
  simpa using resetBegun_echoed room

theorem enterResetting_floor (s : State) : (enterResetting s).floor.state = .idle ∧
    (enterResetting s).floor.yieldOwed = false ∧ (enterResetting s).floor.parkOwed = false ∧
    (enterResetting s).floor.holder ≠ some s.own := by
  have floor : (enterResetting s).floor = (resetFloor (resetBegun s)).floor := by
    rw [enterResetting_eq]
    simp
  obtain ⟨-, -, -, -, -, straps⟩ := resetBegun_rest s
  rw [floor, resetFloor_floor]
  refine ⟨rfl, rfl, rfl, ?_⟩
  rw [← State.own_congr straps]
  exact Floor.leftView_ne _ _

/-- Settles O40: the entry, whose CUTs find room, ends in RESETTING or is drained at once; the two ends of RESETTING are
`endResetting`. -/
theorem resetEmptiesStation : Obligations.ResetEmptiesStation := by
  refine ⟨fun s running heard claims started => ⟨_, exec_reset_entered running heard, ?entered⟩, fun s mute => ?mute,
    fun s resetting => ⟨fun count => ?count, fun withdrawing queue => ?drained⟩⟩
  case mute =>
    exact (if_neg (by simp [mute])).trans (if_pos mute)
  case count =>
    refine congrArg (fun u => Host.Outcome.next (finish u)) ?_
    exact if_pos ((resetCountDue_iff s).mpr ⟨resetting, count⟩)
  case drained =>
    refine congrArg (fun u => Host.Outcome.next (floorReport u)) (if_pos (drained_iff.mpr ⟨resetting, withdrawing, ?_, ?_⟩))
    · exact fun q queued => (queue q queued).1
    · simp only [State.transmitting, List.any_eq_false, QPacket.started]
      intro q queued
      simp [(queue q queued).2]
  case entered =>
    have room : (s.line.queue.filter QPacket.started).length + s.claims.length ≤ 8 := by omega
    obtain ⟨mode, text, script, pacing, timer, number, report⟩ := enterResetting_units room
    have line := enterResetting_line room
    have echoed := enterResetting_echoed room
    obtain ⟨idle, owed, park, holder⟩ := enterResetting_floor s
    have ref : (enterResetting s).ref = s.ref := by simp
    generalize enterResetting s = u at *
    have short : u.report.queue.length < 32 := by
      rw [report]
      simp [ReportUnit.entered]
    have flags : u.report.flags = Flags.clear := by rw [report]; rfl
    have settled := settle_resetting mode idle owed park (by rw [line]; rfl)
    have short' : (drainAct u).report.queue.length < 32 := by simpa using short
    rw [finish, settled, floorReport_flags short', floorReport_floor]
    have view : (drainAct u).floor.state = .idle ∧ (drainAct u).floor.yieldOwed = false ∧
        (drainAct u).floor.parkOwed = false ∧ (drainAct u).floor.holder ≠ some s.own := by
      rcases drainAct_cases u with same | ⟨-, ended⟩
      · rw [same]
        exact ⟨idle, owed, park, holder⟩
      · rw [ended, endResetting_floor]
        exact ⟨idle, owed, park, by simp⟩
    obtain ⟨idle', owed', park', holder'⟩ := view
    refine ⟨?mode, by simp [text, BlockBuilder.emptied], by simp [script, ScriptStore.reset],
      by simp [pacing, PacingSet.reset], by simp [timer], by simp [ref], by simp [number], idle', owed', park', holder',
      by simp [flags], ?claims, fun c listed free sent => ?cut⟩
    case mode =>
      rcases drainAct_cases u with same | ⟨-, ended⟩
      · rw [same]
        exact .inl (by simpa using mode)
      · rw [ended]
        exact .inr (by simp [endResetting_eq])
    case claims =>
      intro c listed
      have listed : c ∈ (drainAct u).claims := by simpa using listed
      rcases drainAct_cases u with same | ⟨-, ended⟩
      · rw [same] at listed
        have := echoed c listed
        constructor <;> intro state <;> simp [Claim.echoed, state] at this
      · simp [ended, endResetting_eq] at listed
    case cut =>
      have queued : QPacket.entryCut (c.seq, if c.state = .onAir then s.plus s.n 4 else c.showAt) ∈ u.line.queue := by
        rw [line]
        exact List.mem_append_right _ (List.mem_map.mpr ⟨_, State.mem_resetCuts listed free sent, rfl⟩)
      have same : drainAct u = u := if_neg fun due => (drained_iff.mp due).2.2.1 _ queued rfl
      rw [same]
      exact ⟨by simpa using mode, _, by simpa using queued, rfl⟩

end Sys2Proof.Machine
end

section
/-! The pace state (R66, R69): what leaves it, and the station in MUTE, which keeps its mode, its floor state and its pace (R164). -/

namespace Sys2Proof.Machine

/-! ### What leaves the pace state -/

@[simp] theorem dropOverflow_pace (s : State) : (dropOverflow s).timer.pace = s.timer.pace := by
  unfold dropOverflow
  (repeat' split) <;> simp

@[simp] theorem enterTail_pace (b : Block) (s : State) : (enterTail b s).timer.pace = s.timer.pace := by
  simp [enterTail]

@[simp] theorem enterHead_pace (b : Block) (s : State) : (enterHead b s).timer.pace = s.timer.pace := by
  unfold enterHead
  (repeat' split) <;> simp

@[simp] theorem enterHeads_pace (l : List Block) (s : State) : (enterHeads l s).timer.pace = s.timer.pace := by
  induction l with
  | nil => rfl
  | cons b l ih => simp [enterHeads, ih]

@[simp] theorem handBack_pace (p : Claim → Bool) (s : State) : (handBack p s).timer.pace = s.timer.pace := by
  simp [handBack]

@[simp] theorem ownerGivesUp_pace (k : PacketKind) (s : State) : (ownerGivesUp k s).timer.pace = s.timer.pace := by
  unfold ownerGivesUp
  (repeat' split) <;> simp

@[simp] theorem giveUp_pace (k : PacketKind) (s : State) : (giveUp k s).timer.pace = s.timer.pace := by
  simp [giveUp]

@[simp] theorem displaceAt_pace (i : Nat) (s : State) : (displaceAt i s).timer.pace = s.timer.pace := by
  unfold displaceAt
  (repeat' split) <;> simp

@[simp] theorem makeCutRoom_pace (s : State) : (makeCutRoom s).timer.pace = s.timer.pace := by
  unfold makeCutRoom
  (repeat' split) <;> simp

@[simp] theorem queueCut_pace (seq : Byte) (off : Frame) (mark : ResetMark) (s : State) : (queueCut seq off mark s).timer.pace = s.timer.pace := by
  unfold queueCut
  dsimp only
  split <;> simp

@[simp] theorem withdraw_pace (seq : Byte) (off : Frame) (mark : ResetMark) (s : State) : (withdraw seq off mark s).timer.pace = s.timer.pace := by
  simp [withdraw]

@[simp] theorem conflictLoss_pace (seq : Byte) (s : State) : (conflictLoss seq s).timer.pace = s.timer.pace := by
  unfold conflictLoss
  dsimp only
  (repeat' split) <;> simp

@[simp] theorem cueGone_pace (why : MapEnd) (c : Cue) (s : State) : (cueGone why c s).timer.pace = s.timer.pace := by
  unfold cueGone
  (repeat' split) <;> simp

@[simp] theorem cuesGone_pace (why : MapEnd) (l : List Cue) (s : State) : (cuesGone why l s).timer.pace = s.timer.pace := by
  induction l generalizing s with
  | nil => rfl
  | cons c l ih => simp [cuesGone, ih]

@[simp] theorem makeRowRoom_pace (inHand : Cue → Bool) (row : Nat) (s : State) : (makeRowRoom inHand row s).timer.pace = s.timer.pace := by
  unfold makeRowRoom
  (repeat' split) <;> simp

@[simp] theorem makeEntries_pace (inHand : Cue → Bool) (c : Cue) (s : State) : (makeEntries inHand c s).timer.pace = s.timer.pace := by
  unfold makeEntries
  dsimp only
  split <;> simp

@[simp] theorem conflictTest_pace (c : Cue) (s : State) : (conflictTest c s).timer.pace = s.timer.pace := by
  unfold conflictTest
  dsimp only
  split <;> simp

@[simp] theorem expireCues_pace (s : State) : (expireCues s).timer.pace = s.timer.pace := by
  simp [expireCues]

@[simp] theorem mapCue_pace (sender : Nat) (b : CueBody) (s : State) : (mapCue sender b s).timer.pace = s.timer.pace := by
  simp [mapCue]

@[simp] theorem mapRevise_pace (sender : Nat) (b : CueBody) (s : State) : (mapRevise sender b s).timer.pace = s.timer.pace := by
  unfold mapRevise
  (repeat' split) <;> simp

@[simp] theorem makeAllEntries_pace (inHand : Cue → Bool) (l : List Cue) (s : State) : (makeAllEntries inHand l s).timer.pace = s.timer.pace := by
  induction l generalizing s with
  | nil => rfl
  | cons c l ih => simp [makeAllEntries, ih]

@[simp] theorem testAll_pace (l : List Cue) (s : State) : (testAll l s).timer.pace = s.timer.pace := by
  induction l generalizing s with
  | nil => rfl
  | cons c l ih =>
    unfold testAll
    split <;> simp [ih]

@[simp] theorem mapState_pace (sender : Nat) (l : List StateClaim) (s : State) : (mapState sender l s).timer.pace = s.timer.pace := by
  simp [mapState]

@[simp] theorem mapCut_pace (sender : Nat) (seq : Byte) (off : Frame) (s : State) : (mapCut sender seq off s).timer.pace = s.timer.pace := by
  unfold mapCut
  (repeat' split) <;> simp

@[simp] theorem overtakenTest_pace (s : State) : (overtakenTest s).timer.pace = s.timer.pace := by
  simp [overtakenTest]

@[simp] theorem showAndExpire_pace (step : Bool) (s : State) : (showAndExpire step s).timer.pace = s.timer.pace := by
  simp [showAndExpire]

@[simp] theorem staleWaiting_pace (s : State) : (staleWaiting s).timer.pace = s.timer.pace := by
  simp [staleWaiting]

@[simp] theorem closeBlock_pace (cause : CloseCause) (s : State) : (closeBlock cause s).timer.pace = s.timer.pace := by
  simp [closeBlock]

@[simp] theorem placeWord_pace (w : TextWord) (a : Frame) (s : State) : (placeWord w a s).timer.pace = s.timer.pace := by
  unfold placeWord
  (repeat' split) <;> simp

@[simp] theorem completeWord_pace (s : State) : (completeWord s).timer.pace = s.timer.pace := by
  unfold completeWord
  (repeat' split) <;> simp

@[simp] theorem completeAndTest_pace (s : State) : (completeAndTest s).timer.pace = s.timer.pace := by
  unfold completeAndTest
  dsimp only
  (repeat' split) <;> simp

@[simp] theorem closeOpen_pace (cause : CloseCause) (s : State) : (closeOpen cause s).timer.pace = s.timer.pace := by
  unfold closeOpen
  dsimp only
  split <;> simp

@[simp] theorem builderCharacter_pace (c : Byte) (s : State) : (builderCharacter c s).timer.pace = s.timer.pace := by
  unfold builderCharacter
  (repeat' split) <;> simp

@[simp] theorem idleCloseAct_pace (s : State) : (idleCloseAct s).timer.pace = s.timer.pace := by
  unfold idleCloseAct
  (repeat' split) <;> simp

@[simp] theorem ageQueue_pace (s : State) : (ageQueue s).timer.pace = s.timer.pace := by
  unfold ageQueue
  dsimp only
  split <;> simp

@[simp] theorem yieldDiscard_pace (s : State) : (yieldDiscard s).timer.pace = s.timer.pace := by
  simp [yieldDiscard]

@[simp] theorem queueRetract_pace (s : State) : (queueRetract s).timer.pace = s.timer.pace := by
  unfold queueRetract
  dsimp only
  (repeat' split) <;> simp

@[simp] theorem reviseClaim_pace (c : Claim) (s : State) : (reviseClaim c s).timer.pace = s.timer.pace := by
  unfold reviseClaim
  dsimp only
  (repeat' split) <;> simp

@[simp] theorem claimRetract_pace (s : State) : (claimRetract s).timer.pace = s.timer.pace := by
  unfold claimRetract
  (repeat' split) <;> simp

@[simp] theorem liveRetract_pace (s : State) : (liveRetract s).timer.pace = s.timer.pace := by
  unfold liveRetract
  (repeat' split) <;> simp

@[simp] theorem releaseBlock_pace (t : Text) (s : State) : (releaseBlock t s).timer.pace = s.timer.pace := by
  simp [releaseBlock]

@[simp] theorem storeNext_pace (s : State) : (storeNext s).timer.pace = s.timer.pace := by
  unfold storeNext
  (repeat' split) <;> simp

@[simp] theorem deadlineAct_pace (s : State) : (deadlineAct s).timer.pace = s.timer.pace := by
  unfold deadlineAct
  (repeat' split) <;> simp

@[simp] theorem builderBoundary_pace (s : State) : (builderBoundary s).timer.pace = s.timer.pace := by
  simp [builderBoundary]

@[simp] theorem withdrawClaimed_pace (l : List Claim) (s : State) : (withdrawClaimed l s).timer.pace = s.timer.pace := by
  induction l generalizing s with
  | nil => rfl
  | cons c l ih =>
    rw [withdrawClaimed_cons, ih]
    split <;> simp

@[simp] theorem forcedOffClaims_pace (s : State) : (forcedOffClaims s).timer.pace = s.timer.pace := by
  simp [forcedOffClaims]

@[simp] theorem phaseLoad_pace (f : Frame) (s : State) : (phaseLoad f s).timer.pace = s.timer.pace := by
  unfold phaseLoad
  dsimp only
  split <;> simp

@[simp] theorem takeTime_pace (sender : Nat) (b : StateBody) (passed : Nat) (s : State) : (takeTime sender b passed s).timer.pace = s.timer.pace := by
  unfold takeTime
  dsimp only
  (repeat' split) <;> simp

@[simp] theorem takeState_pace (sender : Nat) (b : StateBody) (passed : Nat) (s : State) : (takeState sender b passed s).timer.pace = s.timer.pace := by
  simp [takeState]

@[simp] theorem takeCue_pace (sender : Nat) (b : CueBody) (s : State) : (takeCue sender b s).timer.pace = s.timer.pace := by
  simp [takeCue]

@[simp] theorem takeRevise_pace (sender : Nat) (b : CueBody) (s : State) : (takeRevise sender b s).timer.pace = s.timer.pace := by
  simp [takeRevise]

@[simp] theorem takeCut_pace (sender : Nat) (seq : Byte) (off : Frame) (s : State) : (takeCut sender seq off s).timer.pace = s.timer.pace := by
  simp [takeCut]

@[simp] theorem giveBack_pace (k : PacketKind) (why : StartTest) (s : State) : (giveBack k why s).timer.pace = s.timer.pace := by
  unfold giveBack
  (repeat' split) <;> simp

@[simp] theorem startHead_pace (k : Nat) (t : Moment) (s : State) : (startHead k t s).timer.pace = s.timer.pace := by
  induction k generalizing s with
  | zero => rfl
  | succ k ih =>
    unfold startHead
    (repeat' split) <;> simp [ih]

@[simp] theorem cueEcho_pace (b : CueBody) (s : State) : (cueEcho b s).timer.pace = s.timer.pace := by
  unfold cueEcho
  (repeat' split) <;> simp

@[simp] theorem reviseEcho_pace (b : CueBody) (t : Text) (s : State) : (reviseEcho b t s).timer.pace = s.timer.pace := by
  unfold reviseEcho
  dsimp only
  (repeat' split) <;> simp

@[simp] theorem cutEcho_pace (seq : Byte) (off : Frame) (s : State) : (cutEcho seq off s).timer.pace = s.timer.pace := by
  unfold cutEcho
  dsimp only
  split <;> simp

@[simp] theorem endUnlisted_pace (l : List Cue) (s : State) : (endUnlisted l s).timer.pace = s.timer.pace := by
  induction l generalizing s with
  | nil => rfl
  | cons c l ih =>
    unfold endUnlisted
    split <;> simp [ih]

@[simp] theorem stateEcho_pace (b : StateBody) (s : State) : (stateEcho b s).timer.pace = s.timer.pace := by
  simp [stateEcho]

@[simp] theorem stopAct_pace (q : QPacket) (s : State) : (stopAct q s).timer.pace = s.timer.pace := by
  unfold stopAct
  (repeat' split) <;> simp

end Sys2Proof.Machine
end

section
/-! The station in MUTE (R164): every command but POWER_ON leaves it there, no park owed. -/

namespace Sys2Proof.Machine

/-- A station in MUTE that owes no park. -/
def Muted (s : State) : Prop := s.station.mode = .mute ∧ s.floor.parkOwed = false

/-- What an act leaves of a station in MUTE: it is still there, and from IDLE it stays IDLE at its pace. -/
def MuteKeeps (s t : State) : Prop :=
  Muted s → Muted t ∧ (s.floor.state = .idle → t.floor.state = .idle ∧ t.timer.pace = s.timer.pace)

theorem MuteKeeps.refl (s : State) : MuteKeeps s s := fun muted => ⟨muted, fun idle => ⟨idle, rfl⟩⟩

theorem MuteKeeps.trans {s t u : State} (first : MuteKeeps s t) (second : MuteKeeps t u) : MuteKeeps s u := by
  intro muted
  obtain ⟨muted', kept⟩ := first muted
  obtain ⟨muted'', kept'⟩ := second muted'
  refine ⟨muted'', fun idle => ?_⟩
  obtain ⟨idle', pace⟩ := kept idle
  obtain ⟨idle'', pace'⟩ := kept' idle'
  exact ⟨idle'', pace'.trans pace⟩

/-- An act that touches neither the mode, the park owed, the floor state nor the pace. -/
theorem MuteKeeps.quiet {s t : State} (mode : t.station.mode = s.station.mode) (park : t.floor.parkOwed = s.floor.parkOwed)
    (state : t.floor.state = s.floor.state) (pace : t.timer.pace = s.timer.pace) : MuteKeeps s t :=
  fun ⟨mute, notOwed⟩ => ⟨⟨mode.trans mute, park.trans notOwed⟩, fun idle => ⟨state.trans idle, pace⟩⟩

/-- An act that touches neither the mode, the floor nor the pace. -/
theorem MuteKeeps.same {s t : State} (station : t.station = s.station) (floor : t.floor = s.floor)
    (pace : t.timer.pace = s.timer.pace) : MuteKeeps s t :=
  .quiet (by rw [station]) (by rw [floor]) (by rw [floor]) pace

/-- An act that can give up a packet, and with it lose a bid. -/
theorem MuteKeeps.mayEnd {s t : State} (station : t.station = s.station) (may : BidMayEnd s t)
    (pace : t.timer.pace = s.timer.pace) : MuteKeeps s t := by
  rintro ⟨mute, park⟩
  rcases may with same | ⟨bidding, lost⟩
  · exact MuteKeeps.same station same pace ⟨mute, park⟩
  · exact ⟨⟨by rw [station, mute], by rw [lost]; exact park⟩, fun idle => by rw [idle] at bidding; cases bidding⟩

/-- An act that MUTE rules out. -/
theorem MuteKeeps.ite {s t u : State} {p : Prop} [Decidable p] (yes : p → MuteKeeps s t) (no : ¬ p → MuteKeeps s u) :
    MuteKeeps s (if p then t else u) := by
  split
  · exact yes ‹_›
  · exact no ‹_›

/-- Where the condition contradicts MUTE, the act is not made. -/
theorem MuteKeeps.excluded {s t : State} (not : s.station.mode ≠ .mute) : MuteKeeps s t := fun muted => absurd muted.1 not

/-! ### The end of an act -/

theorem parkAct_muteKeeps (s : State) : MuteKeeps s (parkAct s) := by
  rintro muted
  have notDue : parkAct s = s := if_neg (by simp [parkDue, muted.2])
  rw [notDue]
  exact MuteKeeps.refl s muted

theorem attempts_muteKeeps (k : Nat) (s : State) : MuteKeeps s (attempts k s) := by
  intro muted
  have notDue : attemptDue s = false := by simp [attemptDue, gateOpen, muted.1]
  rw [attempts_of_not_due k notDue]
  exact MuteKeeps.refl s muted

theorem autoTake_muteKeeps (s : State) : MuteKeeps s (autoTake s) := by
  unfold autoTake
  refine .ite (fun due => .excluded ?_) fun _ => .refl s
  obtain ⟨-, active, -⟩ := autoTakeDue_iff.mp due
  simp [active]

theorem drainAct_muteKeeps (s : State) : MuteKeeps s (drainAct s) :=
  .ite (fun due => .excluded (by simp [drained_mode s due])) fun _ => .refl s

theorem floorReport_muteKeeps (s : State) : MuteKeeps s (floorReport s) :=
  .quiet (by simp) (by rw [floorReport_floor]) (by rw [floorReport_floor]) (by simp)

theorem oweYield_muteKeeps (s : State) : MuteKeeps s (oweYield s) := by
  obtain ⟨state, park, -⟩ := oweYield_floor s
  exact .quiet (by simp) park state (by simp)

theorem finish_muteKeeps (s : State) : MuteKeeps s (finish s) := by
  refine MuteKeeps.trans ?_ (floorReport_muteKeeps _)
  rw [settle_eq]
  refine MuteKeeps.trans ?_ (drainAct_muteKeeps _)
  unfold beforeDrain
  dsimp only
  generalize entered : enterWaiting (parkAct s) = u
  have first : MuteKeeps s u := by
    rw [← entered]
    exact (parkAct_muteKeeps s).trans (.same (by simp) (by simp) (by simp))
  generalize u.text.queue.length = k
  refine ((first.trans (attempts_muteKeeps k u)).trans (oweYield_muteKeeps _)).trans ?_
  exact MuteKeeps.trans (t := queueYield _) (.same (by simp) (by simp) (by simp)) (autoTake_muteKeeps _)

theorem MuteKeeps.finish {s u : State} (act : MuteKeeps s u) : MuteKeeps s (finish u) := act.trans (finish_muteKeeps u)

/-! ### The floor -/

theorem holdFloor_muteKeeps (s : State) : MuteKeeps s (holdFloor s) := by
  rintro ⟨mute, park⟩
  cases state : s.floor.state with
  | idle =>
    rw [holdFloor_refused state (by simp [mute])]
    exact ⟨⟨mute, park⟩, fun _ => ⟨state, rfl⟩⟩
  | bidding =>
    rw [holdFloor_gained (.inl state), becomeLive_off (by simp [setHolder, State.modFloor, state])]
    exact ⟨⟨by simp [mute], by simpa [setHolder] using park⟩, by simp⟩
  | live =>
    rw [holdFloor_held (.inl state)]
    exact ⟨⟨mute, park⟩, by simp⟩
  | yielding =>
    rw [holdFloor_held (.inr state)]
    exact ⟨⟨mute, park⟩, by simp⟩

theorem setHolder_muteKeeps (h : Option Nat) (s : State) : MuteKeeps s (setHolder h s) := .quiet rfl rfl rfl rfl

theorem setSuccessor_muteKeeps (h : Option Nat) (s : State) : MuteKeeps s (setSuccessor h s) := .quiet rfl rfl rfl rfl

/-- An act that leaves the floor for IDLE. -/
theorem MuteKeeps.idled {s t : State} (station : t.station = s.station) (park : t.floor.parkOwed = s.floor.parkOwed)
    (idle : t.floor.state = .idle) (pace : t.timer.pace = s.timer.pace) : MuteKeeps s t :=
  fun ⟨mute, notOwed⟩ => ⟨⟨by rw [station, mute], park.trans notOwed⟩, fun _ => ⟨idle, pace⟩⟩

/-- An act from another floor state than IDLE. -/
theorem MuteKeeps.hand {s t : State} (station : t.station = s.station) (park : t.floor.parkOwed = s.floor.parkOwed)
    (hand : s.floor.state ≠ .idle) : MuteKeeps s t :=
  fun ⟨mute, notOwed⟩ => ⟨⟨by rw [station, mute], park.trans notOwed⟩, fun idle => absurd idle hand⟩

theorem loseBid_muteKeeps (s : State) : MuteKeeps s (loseBid s) :=
  .idled (by simp) (by simp [loseBid, endBid, setFloor]) (by simp [loseBid, endBid, setFloor]) (by simp)

theorem leaveFloor_muteKeeps (s : State) : MuteKeeps s (leaveFloor s) :=
  .idled (by simp) (by rw [leaveFloor_floor]) (by rw [leaveFloor_floor]) (by simp)

theorem yieldsIfLive_muteKeeps (s : State) : MuteKeeps s (if s.floor.state = .live then enterYielding s else s) :=
  .ite (fun live => .hand (by simp) rfl (by simp [live])) fun _ => .refl s

theorem Floor.takenBy_parkOwed (b : Nat) (f : Floor) : (f.takenBy b).parkOwed = f.parkOwed := by
  unfold Floor.takenBy
  repeat' split
  all_goals rfl

theorem peerPlainTake_muteKeeps (b : Nat) (s : State) : MuteKeeps s (peerPlainTake b s) := by
  rw [peerPlainTake_eq]
  by_cases live : s.floor.state = .live
  · refine .hand rfl ?_ (by simp [live])
    simp [live, Floor.takenBy_parkOwed]
  · refine .quiet rfl ?_ ?_ rfl <;> simp [live, Floor.takenBy_parkOwed, Floor.takenBy_state]

theorem ownTakeView_muteKeeps (s : State) : MuteKeeps s (ownTakeView s) := by
  unfold ownTakeView
  split
  · exact holdFloor_muteKeeps s
  · exact setSuccessor_muteKeeps _ s
  · exact .ite (fun _ => holdFloor_muteKeeps s) fun _ => .refl s
  · exact .refl s

theorem ownPlainTake_muteKeeps (s : State) : MuteKeeps s (ownPlainTake s) := by
  unfold ownPlainTake
  refine (ownTakeView_muteKeeps s).trans (.ite (fun bidding => .ite (fun _ => ?_) fun _ => loseBid_muteKeeps _) fun _ => .refl _)
  exact .quiet rfl rfl rfl rfl

theorem forcedOffClaims_muteKeeps (s : State) : MuteKeeps s (forcedOffClaims s) :=
  .mayEnd (by simp) (forcedOffClaims_mayEnd s) (by simp)

theorem forcedTakeView_muteKeeps (b : Nat) (s : State) : MuteKeeps s (forcedTakeView b s) := by
  unfold forcedTakeView
  dsimp only
  refine (setSuccessor_muteKeeps none s).trans (.ite (fun _ => holdFloor_muteKeeps _) fun _ => ?_)
  refine (setHolder_muteKeeps (some b) _).trans ?_
  split
  · refine .trans ?_ (forcedOffClaims_muteKeeps _)
    exact .idled (by simp) (by simp [setFloor]) (by simp [setFloor]) (by simp)
  · refine .trans ?_ (forcedOffClaims_muteKeeps _)
    exact .idled (by simp) (by simp [setFloor]) (by simp [setFloor]) (by simp)
  · exact .ite (fun _ => loseBid_muteKeeps _) fun _ => .refl _
  · exact .refl _

theorem yieldView_muteKeeps (echo : Bool) (q : Option Nat) (s : State) : MuteKeeps s (yieldView echo q s) := by
  unfold yieldView
  dsimp only
  refine (setSuccessor_muteKeeps none s).trans (.ite (fun _ => ?_) fun _ => ?_)
  · refine (setHolder_muteKeeps (if yieldedTo q s = some (setSuccessor none s).own then none else yieldedTo q s) _).trans ?_
    refine .ite (fun _ => leaveFloor_muteKeeps _) fun _ => ?_
    exact .idled rfl rfl rfl rfl
  · refine .ite (fun _ => holdFloor_muteKeeps _) fun _ => (setHolder_muteKeeps (yieldedTo q s) _).trans ?_
    split
    · exact .ite (fun _ => loseBid_muteKeeps _) fun _ => .refl _
    · exact leaveFloor_muteKeeps _
    · exact leaveFloor_muteKeeps _
    · exact .refl _

theorem silenceView_muteKeeps (p : Nat) (s : State) : MuteKeeps s (silenceView p s) := by
  unfold silenceView
  dsimp only
  refine .ite (fun _ => (setSuccessor_muteKeeps none s).trans (.ite (fun _ => holdFloor_muteKeeps _) fun _ =>
    setHolder_muteKeeps _ _)) fun _ => .ite (fun _ => setSuccessor_muteKeeps none s) fun _ => .refl s

theorem peerSilentAct_muteKeeps (p : Nat) (s : State) : MuteKeeps s (peerSilentAct p s) := by
  unfold peerSilentAct
  refine .ite (fun _ => .trans (t := setPeer p _ s) ?_ (silenceView_muteKeeps p _)) fun _ => .refl s
  exact .same (by simp) (by simp) (by simp)

theorem silenceAll_muteKeeps (l : List Nat) (s : State) : MuteKeeps s (silenceAll l s) := by
  induction l generalizing s with
  | nil => exact .refl s
  | cons p l ih => exact (peerSilentAct_muteKeeps p s).trans (ih _)

theorem holderFromState_muteKeeps (p : Nat) (s : State) : MuteKeeps s (holderFromState p s) := by
  unfold holderFromState
  refine .ite (fun _ => (setHolder_muteKeeps _ s).trans (.ite (fun _ => setSuccessor_muteKeeps none _) fun _ => .refl _))
    fun _ => .refl s

/-! ### Modes, items and echoes -/

theorem joinAct_muteKeeps (s : State) : MuteKeeps s (joinAct s) := by
  refine .ite (fun due => .excluded ?_) fun _ => .refl s
  simp [((joinDue_iff s).mp due).1]

theorem resetCountAct_muteKeeps (s : State) : MuteKeeps s (resetCountAct s) := by
  refine .ite (fun due => .excluded ?_) fun _ => .refl s
  simp [((resetCountDue_iff s).mp due).1]

theorem deadlineAct_muteKeeps (s : State) : MuteKeeps s (deadlineAct s) := by
  refine .ite (fun _ => ?_) fun _ => .refl s
  exact .quiet (by simp) (by simp) (by simp) (by simp)

theorem bidExpiryAct_muteKeeps (s : State) : MuteKeeps s (bidExpiryAct s) := by
  refine .ite (fun _ => ?_) fun _ => .refl s
  exact .quiet (by simp) (by simp) (by simp) (by simp)

/-- An item boundary taken in MUTE keeps the pace (log entry 38). -/
theorem takeBoundary_muteKeeps (b : Frame) (k : Byte) (s : State) : MuteKeeps s (takeBoundary b k s) := by
  rintro ⟨mute, park⟩
  have pace : (takeBoundary b k s).timer.pace = s.timer.pace := by simp [takeBoundary, mute]
  exact MuteKeeps.same (by simp) (by simp) pace ⟨mute, park⟩

theorem dropOwnItem_muteKeeps (s : State) : MuteKeeps s (dropOwnItem s) := .same (by simp) (by simp) (by simp)

theorem takeItem_muteKeeps (echo : Bool) (b : Frame) (k : Byte) (s : State) : MuteKeeps s (takeItem echo b k s) := by
  unfold takeItem
  dsimp only
  refine .ite (fun _ => .refl s) fun _ => ?_
  cases echo
  · exact (dropOwnItem_muteKeeps s).trans (takeBoundary_muteKeeps b k _)
  · exact takeBoundary_muteKeeps b k s

theorem takeTime_mayEnd (sender : Nat) (b : StateBody) (passed : Nat) (s : State) : BidMayEnd s (takeTime sender b passed s) := by
  unfold takeTime
  dsimp only
  split
  · split
    · exact .of_eq rfl
    · exact (phaseLoad_mayEnd _ _).from rfl
  · exact .refl s

theorem takeState_muteKeeps (sender : Nat) (b : StateBody) (passed : Nat) (s : State) :
    MuteKeeps s (takeState sender b passed s) := by
  unfold takeState
  have timed : MuteKeeps s (takeTime sender b passed (announce sender b s)) :=
    .mayEnd (by simp) (.from (t := announce sender b s) (takeTime_mayEnd _ _ _ _) (by simp)) (by simp)
  refine (timed.trans (holderFromState_muteKeeps sender _)).trans ?_
  refine .mayEnd (by simp) (.keep ?_ (overtakenTest_floor _)) (by simp)
  exact ((mapState_mayEnd sender b.claims _).trans (expireCues_mayEnd _)).from (by simp)

theorem deliverEcho_muteKeeps (sent : Sent) (s : State) : MuteKeeps s (deliverEcho sent s) := by
  unfold deliverEcho
  split
  · exact .mayEnd (by simp) (cueEcho_mayEnd _ s) (by simp)
  · exact .mayEnd (by simp) (reviseEcho_mayEnd _ _ s) (by simp)
  · exact .mayEnd (by simp) (cutEcho_mayEnd _ _ s) (by simp)
  · exact .ite (fun _ => forcedTakeView_muteKeeps _ s) fun _ => ownPlainTake_muteKeeps s
  · exact yieldView_muteKeeps true _ s
  · exact takeItem_muteKeeps true _ _ s
  · exact .mayEnd (by simp) (stateEcho_mayEnd _ s) (by simp)

theorem packetLeft_pace (q : QPacket) (s : State) : (packetLeft q s).timer.pace = s.timer.pace := by
  unfold packetLeft
  split <;> simp

theorem echoAct_muteKeeps (q : QPacket) (sent : Sent) (s : State) : MuteKeeps s (echoAct q sent s) := by
  obtain ⟨-, floor, station⟩ := packetLeft_frame q s
  have left : MuteKeeps s (packetLeft q s) := .same station floor (packetLeft_pace q s)
  have heard : MuteKeeps s (markHeard s.own (packetLeft q s)) := left.trans (.same (by simp) (by simp) (by simp))
  rw [echoAct_eq]
  refine .ite (fun _ => .ite (fun _ => heard.trans (deliverEcho_muteKeeps sent _)) fun _ => ?_) fun _ => ?_
  · exact heard.trans (.same (by simp) (by simp) (by simp))
  · exact left.trans (.same (by simp) (by simp) (by simp))

/-! ### The boundary and the packets heard -/

theorem beginFrame_muteKeeps (t : Moment) (s : State) : MuteKeeps s (beginFrame t s) := by
  refine .quiet ?_ ?_ ?_ (by simp) <;> simp [beginFrame, tickFloor, tickStation]

theorem showAndExpire_muteKeeps (step : Bool) (s : State) : MuteKeeps s (showAndExpire step s) :=
  .mayEnd (by simp) (showAndExpire_mayEnd step s) (by simp)

theorem staleWaiting_muteKeeps (s : State) : MuteKeeps s (staleWaiting s) := .same (by simp) (by simp) (by simp)

theorem builderBoundary_muteKeeps (s : State) : MuteKeeps s (builderBoundary s) := .same (by simp) (by simp) (by simp)

theorem stateDueAct_muteKeeps (s : State) : MuteKeeps s (stateDueAct s) := .same (by simp) (by simp) (by simp)

theorem endHold_muteKeeps (s : State) : MuteKeeps s (s.modTimer fun u => { u with hold := false }) := .same rfl rfl rfl

theorem boundaryActs_muteKeeps (t : Moment) (s : State) : MuteKeeps s (boundaryActs t s) := by
  have shown := (beginFrame_muteKeeps t s).trans (showAndExpire_muteKeeps (isStep s) _)
  have silenced := (shown.trans (staleWaiting_muteKeeps _)).trans (silenceAll_muteKeeps stationNumbers _)
  have built := (silenced.trans (deadlineAct_muteKeeps _)).trans (builderBoundary_muteKeeps _)
  have stated := (built.trans (bidExpiryAct_muteKeeps _)).trans (stateDueAct_muteKeeps _)
  have unheld := stated.trans (endHold_muteKeeps _)
  exact (unheld.trans (resetCountAct_muteKeeps _)).trans (joinAct_muteKeeps _)

theorem boundary_muteKeeps (t : Moment) (s : State) : MuteKeeps s (boundary t s) := by
  rw [boundary_eq]
  exact (boundaryActs_muteKeeps t s).finish

/-! ### Commands -/

theorem closeCommand_muteKeeps (s : State) : MuteKeeps s (closeCommand s) := .same (by simp) (by simp) (by simp)

theorem plainCode_muteKeeps {f : State → State} (s : State)
    (act : ∀ u, (f u).station = u.station ∧ (f u).floor = u.floor ∧ (f u).timer.pace = u.timer.pace) :
    MuteKeeps s (plainCode f s) := by
  refine .ite (fun _ => .refl s) fun _ => (closeCommand_muteKeeps s).trans ?_
  obtain ⟨station, floor, pace⟩ := act (closeCommand s)
  exact .same station floor pace

theorem actCode_muteKeeps {f : State → State} (s : State) (act : ∀ u, MuteKeeps u (f u)) : MuteKeeps s (actCode f s) :=
  .ite (fun _ => .refl s) fun _ => ((closeCommand_muteKeeps s).trans (act _)).finish

theorem hear_muteKeeps {f : State → State} (sender : Nat) (k : Packet) (s : State) (deliver : ∀ u, MuteKeeps u (f u)) :
    MuteKeeps s (finish (hear sender k f s)) := by
  have heard : MuteKeeps s (markHeard sender (endReception s)) := .same (by simp) (by simp) (by simp)
  refine MuteKeeps.finish (hear_cases (P := MuteKeeps s) (.same (by simp) (by simp) (by simp))
    (.same (by simp) (by simp) (by simp)) MuteKeeps.excluded (fun _ => ?_) fun _ _ _ => heard.trans (deliver _))
  exact heard.trans (.same (by simp) (by simp) (by simp))

theorem takeCharacter_muteKeeps (c : Byte) (s : State) : MuteKeeps s (takeCharacter c s) := by
  unfold takeCharacter
  split
  · exact .same rfl rfl rfl
  · split <;> exact .same (by simp) (by simp) (by simp)

theorem discardByte_muteKeeps (framingError : Bool) (b : Byte) (s : State) : MuteKeeps s (discardByte framingError b s) := by
  unfold discardByte
  split <;> exact .same (by simp) (by simp) (by simp)

theorem takeAct_muteKeeps (s : State) : MuteKeeps s (takeAct s) :=
  .ite (fun active => .excluded (by simp [active])) fun _ => .same (by simp) (by simp) (by simp)

theorem parkCode_muteKeeps (s : State) : MuteKeeps s (parkCode s) := by
  rintro ⟨mute, park⟩
  rw [parkCode_ignored (.inr mute)]
  exact MuteKeeps.refl s ⟨mute, park⟩

theorem unparkCode_muteKeeps (s : State) : MuteKeeps s (unparkCode s) := by
  rintro ⟨mute, park⟩
  rw [unparkCode_ignored (.inr mute)]
  exact MuteKeeps.refl s ⟨mute, park⟩

theorem retractAct_muteKeeps (s : State) : MuteKeeps s (retractAct s) := by
  unfold retractAct
  split
  · exact .same rfl rfl rfl
  · exact .refl s
  · exact .mayEnd (by simp) (liveRetract_mayEnd s) (by simp)

theorem exec_muteKeeps (i : Instr) (s : State) (running : ∀ pins m, i ≠ .powerOn pins m) :
    Answers (MuteKeeps s) (exec i s) := by
  cases i with
  | powerOn pins m => exact absurd rfl (running pins m)
  | referencePulse t =>
    exact .ite (fun _ => .next ((MuteKeeps.same (t := pulseInstant t s) rfl rfl rfl).trans (boundary_muteKeeps t _)))
      fun _ => .next (.same rfl rfl rfl)
  | flywheelExpiry =>
    exact .next ((MuteKeeps.same (t := flywheelInstant s) rfl rfl rfl).trans (boundary_muteKeeps _ _))
  | guardWindowOpen => exact .next (.same rfl rfl rfl)
  | timecodeValue h m sec f => exact .ite (fun _ => .next (.same rfl rfl rfl)) fun _ => .next (.refl s)
  | timecodeLost => exact .next (.same (by simp) (by simp) (by simp))
  | peerTimeSilenceExpiry => exact .next (.same (by simp) (by simp) (by simp))
  | character c =>
    exact .ite (fun _ => .next (.refl s)) fun _ => .ite (fun _ => .next (takeCharacter_muteKeeps c s).finish)
      fun _ => .next (discardByte_muteKeeps _ c s)
  | discardedByte framingError b => exact .ite (fun _ => .next (.refl s)) fun _ => .next (discardByte_muteKeeps _ b s)
  | endBlock =>
    exact .next (actCode_muteKeeps s fun u => by unfold endBlockAct; split <;> exact .same (by simp) (by simp) (by simp))
  | speaker =>
    exact .next (actCode_muteKeeps s fun u => by unfold speakerAct; split <;> exact .same (by simp) (by simp) (by simp))
  | retract => exact .next (actCode_muteKeeps s retractAct_muteKeeps)
  | scriptBegin => exact .next (plainCode_muteKeeps s fun _ => ⟨rfl, rfl, rfl⟩)
  | scriptEnd => exact .next (plainCode_muteKeeps s fun u => by unfold scriptEndAct; split <;> simp)
  | loopOn => exact .next (plainCode_muteKeeps s fun _ => ⟨rfl, rfl, rfl⟩)
  | loopOff => exact .next (plainCode_muteKeeps s fun _ => ⟨rfl, rfl, rfl⟩)
  | next => exact .next (actCode_muteKeeps s fun u => .same (by simp) (by simp) (by simp))
  | take => exact .next (actCode_muteKeeps s takeAct_muteKeeps)
  | yield => exact .next (actCode_muteKeeps s yieldsIfLive_muteKeeps)
  | park => exact .next (actCode_muteKeeps s parkCode_muteKeeps)
  | unpark => exact .next (actCode_muteKeeps s unparkCode_muteKeeps)
  | hold => exact .next (plainCode_muteKeeps s fun _ => ⟨rfl, rfl, rfl⟩)
  | release => exact .next (plainCode_muteKeeps s fun u => by unfold releaseAct; split <;> simp)
  | status => exact .next (plainCode_muteKeeps s fun _ => ⟨rfl, rfl, rfl⟩)
  | reset =>
    exact .ite (fun _ => .next (.refl s)) fun _ => .ite (fun _ => .next (closeCommand_muteKeeps s))
      fun heard => .next (.excluded heard)
  | paceIntroducer => exact .next (plainCode_muteKeeps s fun _ => ⟨rfl, rfl, rfl⟩)
  | paceTerminator => exact .ite (fun _ => .next (.refl s)) fun _ => .next (.same (by simp) (by simp) (by simp))
  | idleClose => exact .next (MuteKeeps.same (by simp) (by simp) (by simp)).finish
  | yieldDeadline => exact .next (deadlineAct_muteKeeps s).finish
  | bidWaitExpiry => exact .next (bidExpiryAct_muteKeeps s).finish
  | peerSilent peer => exact .next (peerSilentAct_muteKeeps peer s).finish
  | stateDue => exact .next (stateDueAct_muteKeeps s)
  | mismatchCountExpiry => exact .next (.same rfl rfl rfl)
  | joinWaitExpiry => exact .next (joinAct_muteKeeps s).finish
  | resetCountExpiry => exact .next (resetCountAct_muteKeeps s).finish
  | resetDrained => exact .next ((drainAct_muteKeeps s).trans (floorReport_muteKeeps _))
  | deferredPark => exact .next (parkAct_muteKeeps s)
  | itemContactClose =>
    exact .next (by unfold contactAct; (repeat' split) <;> exact .same (by simp) (by simp) (by simp))
  | lineIdle t => exact .ite (fun _ => .next (.same rfl rfl rfl)) fun _ => .next (.refl s)
  | transmissionStart t =>
    exact .ite (fun _ => .next (MuteKeeps.same (by simp) (by simp) (by simp)).finish) fun _ => .next (.refl s)
  | packetEcho => exact execPacketEcho_cases (fun q sent _ _ => (echoAct_muteKeeps q sent s).finish) (.refl s)
  | readbackMismatch =>
    exact execReadbackMismatch_cases (fun q _ => (MuteKeeps.mayEnd (by simp) (stopAct_mayEnd q s) (by simp)).finish) (.refl s)
  | waitingRequestEntry => exact .next (.same (by simp) (by simp) (by simp))
  | cutShortPacket => exact .next (.same rfl rfl rfl)
  | discardedPacket => exact .next (.same rfl rfl rfl)
  | cuePacket sender body =>
    exact .next (hear_muteKeeps sender _ s fun u => .mayEnd (by simp)
      (((mapCue_mayEnd _ _ u).trans (expireCues_mayEnd _)).keep (overtakenTest_floor _)) (by simp))
  | revisePacket sender body =>
    exact .next (hear_muteKeeps sender _ s fun u => .mayEnd (by simp)
      (((mapRevise_mayEnd _ _ u).trans (expireCues_mayEnd _)).keep (overtakenTest_floor _)) (by simp))
  | cutPacket sender seq off =>
    exact .next (hear_muteKeeps sender _ s fun u => .mayEnd (by simp) (mapCut_mayEnd _ _ _ u) (by simp))
  | plainTake sender => exact .next (hear_muteKeeps sender _ s (peerPlainTake_muteKeeps sender))
  | forcedTake sender => exact .next (hear_muteKeeps sender _ s (forcedTakeView_muteKeeps sender))
  | yieldPacket sender successor => exact .next (hear_muteKeeps sender _ s (yieldView_muteKeeps false successor))
  | itemPacket sender boundary number => exact .next (hear_muteKeeps sender _ s (takeItem_muteKeeps false boundary number))
  | statePacket sender body => exact .next (hear_muteKeeps sender _ s (takeState_muteKeeps sender body _))
  | reportLineSent => exact .next (.same rfl rfl rfl)
  | lineBusy => exact .ite (fun _ => .next (.same rfl rfl rfl)) fun _ => .next (.refl s)

/-- Settles O5: no command but POWER_ON takes a station out of MUTE, by `exec_muteKeeps`. -/
theorem muteLasts : Obligations.MuteLasts := by
  intro i s t mute park run running
  obtain ⟨⟨mute', park'⟩, kept⟩ := exec_muteKeeps i s running t run ⟨mute, park⟩
  exact ⟨mute', park', kept⟩

end Sys2Proof.Machine
end

section
/-! The line follows the pair (R148), and the requests for its transmitter (R135, R154 to R156): O43, O42. -/

namespace Sys2Proof.Machine

/-! ### The line state (R148) -/

theorem transmitting_eq_true {s : State} : s.transmitting = true ↔ ∃ q ∈ s.line.queue, q.sent ≠ none := by
  rw [← not_iff_not, Bool.not_eq_true, transmitting_eq_false]
  simp

theorem exec_lineIdle (t : Moment) (s : State) : exec (.lineIdle t) s =
    if s.line.idle = false ∧ s.transmitting = false then
      .next { s with line := { s.line with idle := true, idlePoint := t, receiving := none } }
    else .next s := by
  change execLineIdle t s = _
  simp only [execLineIdle, Bool.and_eq_true, Bool.not_eq_true']
  rfl

/-- Settles O43: LINE_IDLE asks for a BUSY line with nothing of the station's in transmission, LINE_BUSY for an IDLE one. -/
theorem lineFollowsPair : Obligations.LineFollowsPair := by
  intro t s
  refine ⟨fun busy silent => ?_, fun held => ?_, fun idle => ?_, fun busy => ?_⟩
  · rw [exec_lineIdle, if_pos ⟨busy, transmitting_eq_false.mpr silent⟩]
  · rw [exec_lineIdle, if_neg]
    rintro ⟨busy, silent⟩
    rcases held with idle | sending
    · exact Bool.noConfusion (busy.symm.trans idle)
    · exact Bool.noConfusion (silent.symm.trans (transmitting_eq_true.mpr sending))
  · exact if_pos idle
  · exact if_neg (Bool.not_eq_true _ ▸ busy)

/-! ### Requests (R154, R155) -/

/-- The entry of waiting requests, with its test of an own ITEM written as a proposition. -/
theorem enterWaiting_item (s : State) :
    enterWaiting s = { s with
      line := s.line.entered,
      item := { s.item with own :=
        if ∃ q ∈ s.line.waiting.take (classPlaces - s.line.queue.length), q.kind = .item then .queued else s.item.own } } := by
  rw [enterWaiting_eq]
  simp only [List.any_eq_true, decide_eq_true_iff]

/-- A CUT is the newest of the queue, with at most 7 packets before it. -/
theorem queueCut_enters (seq : Byte) (off : Frame) (mark : ResetMark) {s : State}
    (within : s.line.queue.length ≤ transmitCapacity) (started : (s.line.queue.filter QPacket.started).length ≤ 1) :
    ∃ rest, (queueCut seq off mark s).line.queue = rest ++ [{ QPacket.fresh (.cut seq off) with mark := mark }] ∧
      rest.length ≤ 7 := by
  have capacity : transmitCapacity = 8 := rfl
  have places : classPlaces = 7 := rfl
  obtain ⟨u, room, eq⟩ := queueCut_queue seq off mark s
  refine ⟨u.line.queue, congrArg (·.line.queue) eq, ?_⟩
  rcases room with ⟨rfl, room⟩ | ⟨rfl, full⟩
  · omega
  · have room := makeCutRoom_room within started full
    omega

/-! ### The item contact (R135) -/

theorem contactAct_asks {s : State} (mode : s.station.mode = .active ∨ s.station.mode = .parked) (own : s.item.own = .none) :
    contactAct s = { s with
      line := s.line.asked .item,
      item := { s.item with own := if s.line.queue.length < 7 then .queued else .waiting } } := by
  have places : classPlaces = 7 := rfl
  unfold contactAct
  rw [if_pos ⟨mode, own⟩, requestPacket_eq, places]
  split <;> rfl

theorem contactAct_ignored {s : State}
    (refused : (s.station.mode ≠ .active ∧ s.station.mode ≠ .parked) ∨ s.item.own ≠ .none) : contactAct s = s := by
  refine if_neg fun ⟨mode, own⟩ => ?_
  rcases refused with ⟨active, parked⟩ | held
  · exact mode.elim active parked
  · exact held own

/-! ### The STATE (R156) -/

theorem stateIsDue_iff {s : State} :
    stateIsDue s = true ↔ s.n % s.fps = (s.own - 1) % s.fps ∨ s.fps ≤ s.line.phase := by simp [stateIsDue]

theorem stateDueAct_sends {s : State} (due : stateIsDue s = true)
    (mode : s.station.mode = .active ∨ s.station.mode = .parked) :
    stateDueAct s = queueState { s with line := { s.line with phase := 0 } } := by
  unfold stateDueAct
  rw [if_pos due]
  exact if_pos mode

theorem stateDueAct_silent {s : State} (due : stateIsDue s = true)
    (mode : ¬ (s.station.mode = .active ∨ s.station.mode = .parked)) :
    stateDueAct s = { s with line := { s.line with phase := 0 } } := by
  unfold stateDueAct
  rw [if_pos due]
  exact if_neg mode

theorem queueState_served {s : State} (sending : ∃ q ∈ s.line.queue, q.kind = .state ∧ q.sent ≠ none) : queueState s = s := by
  obtain ⟨q, mem, kind, started⟩ := sending
  refine if_pos (List.any_eq_true.mpr ⟨q, mem, ?_⟩)
  simpa [QPacket.started, PacketKind.isState_iff, kind] using Option.isSome_iff_ne_none.mpr started

theorem notSending_iff {s : State} :
    (s.line.queue.any fun q => q.kind.isState && q.started) = false ↔ ∀ q ∈ s.line.queue, q.kind = .state → q.sent = none := by
  simp only [List.any_eq_false, Bool.and_eq_true, PacketKind.isState_iff, QPacket.started, Option.isSome_iff_ne_none, not_and,
    ne_eq, not_not]

theorem queueState_replaces {s : State} (silent : ∀ q ∈ s.line.queue, q.kind = .state → q.sent = none)
    (held : ∃ q ∈ s.line.queue ++ s.line.waiting, q.kind = .state) :
    queueState s = { s with
      line := { s.line with queue := s.line.queue.map replaceState, waiting := s.line.waiting.map replaceState } } := by
  have has : hasPacket PacketKind.isState s = true := by simpa [hasPacket_iff, PacketKind.isState_iff] using held
  unfold queueState
  rw [if_neg (Bool.not_eq_true _ ▸ notSending_iff.mpr silent), if_pos has]
  rfl

theorem queueState_asks {s : State} (none : ∀ q ∈ s.line.queue ++ s.line.waiting, q.kind ≠ .state) :
    queueState s = requestPacket .state s := by
  have silent : ∀ q ∈ s.line.queue, q.kind = .state → q.sent = .none :=
    fun q mem kind => absurd kind (none q (List.mem_append_left _ mem))
  have hasnt : ¬ hasPacket PacketKind.isState s = true := by
    rw [hasPacket_iff]
    rintro ⟨q, mem, is⟩
    exact none q mem ((PacketKind.isState_iff _).mp is)
  unfold queueState
  rw [if_neg (Bool.not_eq_true _ ▸ notSending_iff.mpr silent), if_neg hasnt]

theorem LineUnit.asked_phase (k : PacketKind) (l : LineUnit) :
    ({ l with phase := 0 } : LineUnit).asked k = { l.asked k with phase := 0 } := by
  unfold LineUnit.asked
  split <;> rfl

/-- Settles O42: a request, the waiting requests, a CUT, the contact and the STATE each by the rule of their own. -/
theorem requestsEnterOrWait : Obligations.RequestsEnterOrWait := by
  intro s
  dsimp only
  refine ⟨fun k => requestPacket_eq k s, congrArg Host.Outcome.next (enterWaiting_item s),
    fun seq off m within started => queueCut_enters seq off m within started,
    fun mode own => congrArg Host.Outcome.next (contactAct_asks mode own),
    fun refused => congrArg Host.Outcome.next (contactAct_ignored refused), fun due => ?_⟩
  have due := stateIsDue_iff.mpr due
  refine ⟨fun mode none => ?_, fun sending => ?_, fun mode silent held => ?_,
    fun active parked => congrArg Host.Outcome.next (stateDueAct_silent due (not_or.mpr ⟨active, parked⟩))⟩
  · refine congrArg Host.Outcome.next ((stateDueAct_sends due mode).trans ?_)
    rw [queueState_asks (by exact none), requestPacket_eq]
    exact congrArg (fun l => { s with line := l }) (LineUnit.asked_phase .state s.line)
  · refine congrArg Host.Outcome.next ?_
    by_cases mode : s.station.mode = .active ∨ s.station.mode = .parked
    · exact (stateDueAct_sends due mode).trans (queueState_served sending)
    · exact stateDueAct_silent due mode
  · exact congrArg Host.Outcome.next ((stateDueAct_sends due mode).trans (queueState_replaces silent held))

end Sys2Proof.Machine
end

section
/-! The hand-back (R72, R32): which claims leave, which packets go with them, and where their blocks stand: O27. -/

namespace Sys2Proof.Machine

/-! ### The claims that leave -/

theorem picked_iff {p : Claim → Bool} {c : Claim} : (c.isPlanned && p c) = true ↔ c.state = .planned ∧ p c = true := by
  simp [Claim.isPlanned]

/-- The first claim the test picks parts the list: the PLANNED ones from it on leave. -/
theorem plannedFrom_parts {p : Claim → Bool} {before : List Claim} {c : Claim} (after : List Claim)
    (none : ∀ d ∈ before, ¬ (d.state = .planned ∧ p d = true)) (planned : c.state = .planned) (picks : p c = true) :
    plannedFrom p (before ++ c :: after) = c :: after.filter (fun d => decide (d.state = .planned)) ∧
      notPlannedFrom p (before ++ c :: after) = before ++ after.filter (fun d => decide (d.state ≠ .planned)) := by
  induction before with
  | nil =>
    have here := picked_iff.mpr ⟨planned, picks⟩
    constructor
    · exact if_pos here
    · refine (if_pos here).trans (List.filter_congr fun d _ => ?_)
      simp [Claim.isPlanned]
  | cons d before ih =>
    have skip : ¬ (d.isPlanned && p d) = true := fun here => none d (.head _) (picked_iff.mp here)
    obtain ⟨gone, kept⟩ := ih fun e mem => none e (.tail _ mem)
    exact ⟨(if_neg skip).trans gone, (if_neg skip).trans (congrArg (d :: ·) kept)⟩

theorem plannedFrom_none {p : Claim → Bool} {l : List Claim} (none : ∀ d ∈ l, ¬ (d.state = .planned ∧ p d = true)) :
    plannedFrom p l = [] ∧ notPlannedFrom p l = l := by
  induction l with
  | nil => exact ⟨rfl, rfl⟩
  | cons d l ih =>
    have skip : ¬ (d.isPlanned && p d) = true := fun here => none d (.head _) (picked_iff.mp here)
    obtain ⟨gone, kept⟩ := ih fun e mem => none e (.tail _ mem)
    exact ⟨(if_neg skip).trans gone, (if_neg skip).trans (congrArg (d :: ·) kept)⟩

/-- The claims that leave and those that stay are together the claims there were. -/
theorem plannedFrom_perm (p : Claim → Bool) (l : List Claim) : (plannedFrom p l ++ notPlannedFrom p l).Perm l := by
  induction l with
  | nil => exact .nil
  | cons d l ih =>
    unfold plannedFrom notPlannedFrom
    split
    · exact (List.filter_append_perm _ l).cons d
    · exact List.perm_middle.trans (ih.cons d)

theorem mem_notPlannedFrom {p : Claim → Bool} {l : List Claim} (apart : l.Nodup) (c : Claim) :
    c ∈ notPlannedFrom p l ↔ c ∈ l ∧ c ∉ plannedFrom p l := by
  have disjoint := List.disjoint_of_nodup_append ((plannedFrom_perm p l).nodup_iff.mpr apart)
  rw [(plannedFrom_split p l).1 c]
  exact ⟨fun kept => ⟨.inr kept, fun gone => disjoint gone kept⟩, fun ⟨known, stays⟩ => known.resolve_left stays⟩

@[simp] theorem removePlanned_claims (p : Claim → Bool) (s : State) :
    (removePlanned p s).claims = notPlannedFrom p s.claims := by simp [removePlanned]

@[simp] theorem handBack_claims (p : Claim → Bool) (s : State) : (handBack p s).claims = notPlannedFrom p s.claims := by
  simp [handBack]

/-! ### The packets that go with them -/

theorem isCueOfAny_iff {l : List Claim} {k : PacketKind} : isCueOfAny l k = true ↔ ∃ c ∈ l, k = .cue c.seq := by
  simp only [isCueOfAny, List.any_eq_true, PacketKind.isCueOf_iff]

/-- What an owner leaves of the line: the packets started or not its own, the waiting requests in the places freed. -/
theorem removeUnstarted_line (p : PacketKind → Bool) (s : State) :
    (removeUnstarted p s).line = LineUnit.entered { s.line with
      queue := s.line.queue.filter fun q => q.started || !p q.kind
      waiting := s.line.waiting.filter fun q => !p q.kind } :=
  enterWaiting_line _

theorem handBack_line (p : Claim → Bool) (s : State) :
    (handBack p s).line = (removeUnstarted (isCueOfAny (plannedFrom p s.claims)) s).line := by
  simp only [handBack, enterHeads_frame, removePlanned, removeUnstarted_line]
  rfl

/-! ### The blocks at the head (R32) -/

theorem enterHeads_fits {l : List Block} {s : State} (some : l ≠ []) (fits : s.text.queue.length + l.length ≤ blockCapacity) :
    enterHeads l s = { s with
      text := { s.text with queue := l ++ s.text.queue }, timer := { s.timer with hold := false } } := by
  induction l with
  | nil => exact absurd rfl some
  | cons b l ih =>
    rw [List.length_cons] at fits
    unfold enterHeads enterHead
    cases l with
    | nil =>
      exact if_neg (by simp only [enterHeads]; omega)
    | cons c l =>
      rw [ih (List.cons_ne_nil c l) (by omega)]
      exact if_neg (by simp only [List.length_append]; omega)

/-- Settles O27: the claims by the parting of the list, the packets by what an owner removes, the blocks by their entry at
the head one by one. -/
theorem handBackKeepsOrder : Obligations.HandBackKeepsOrder := by
  intro p s
  dsimp only
  refine ⟨fun before c after parts none planned picks => ?_, fun none => ?_, fun apart c => ?_, ?_, fun fits => ?_⟩
  · rw [handBack_claims, parts]
    exact plannedFrom_parts after none planned picks
  · rw [handBack_claims]
    exact plannedFrom_none none
  · rw [handBack_claims]
    exact mem_notPlannedFrom apart c
  · have queued : (s.line.queue.filter fun q => q.started || !isCueOfAny (plannedFrom p s.claims) q.kind) =
        s.line.queue.filter fun q => decide (q.sent ≠ none ∨ ¬ ∃ c ∈ plannedFrom p s.claims, q.kind = .cue c.seq) := by
      refine List.filter_congr fun q _ => ?_
      rw [Bool.eq_iff_iff, decide_eq_true_iff, ← isCueOfAny_iff]
      simp [QPacket.started, Option.isSome_iff_ne_none]
    have waiting : (s.line.waiting.filter fun q => !isCueOfAny (plannedFrom p s.claims) q.kind) =
        s.line.waiting.filter fun q => decide (¬ ∃ c ∈ plannedFrom p s.claims, q.kind = .cue c.seq) := by
      refine List.filter_congr fun q _ => ?_
      rw [Bool.eq_iff_iff, decide_eq_true_iff, ← isCueOfAny_iff]
      simp
    rw [handBack_line, removeUnstarted_line, queued, waiting]
    rfl
  · have fits' : (removePlanned p s).text.queue.length + ((plannedFrom p s.claims).map Claim.block).length ≤ blockCapacity := by
      simpa [removePlanned, blockCapacity] using fits
    by_cases nobody : plannedFrom p s.claims = []
    · have same : handBack p s = removePlanned p s := by
        unfold handBack
        rw [nobody]
        rfl
      rw [same, nobody]
      simp [removePlanned]
    · have heads := enterHeads_fits (mt List.map_eq_nil_iff.mp nobody) fits'
      rw [handBack, heads, if_neg nobody]
      simp [removePlanned]

end Sys2Proof.Machine
end

section
/-! The start of the packet at the head of the Transmit Queue (R76, R149 to R151): O44. -/

namespace Sys2Proof.Machine

/-! ### The head of the queue (R154) -/

theorem PacketKind.cls_le (k : PacketKind) : k.cls ≤ 2 := by cases k <;> simp [PacketKind.cls]

theorem no_cls_of_find? {l : List QPacket} {n : Nat} (none : l.find? (fun p => decide (p.kind.cls = n)) = .none) :
    ∀ r ∈ l, r.kind.cls ≠ n := by simpa using none

theorem cls_of_find? {l : List QPacket} {n : Nat} {q : QPacket}
    (found : l.find? (fun p => decide (p.kind.cls = n)) = some q) : q ∈ l ∧ q.kind.cls = n :=
  ⟨List.mem_of_find?_eq_some found, by simpa using List.find?_some found⟩

/-- The head is a queued packet, of the lowest class there is. -/
theorem queueHead_lowest {l : List QPacket} {q : QPacket} (head : queueHead l = some q) :
    q ∈ l ∧ ∀ r ∈ l, q.kind.cls ≤ r.kind.cls := by
  unfold queueHead at head
  split at head
  · cases head
    obtain ⟨mem, cls⟩ := cls_of_find? ‹_›
    exact ⟨mem, fun r _ => by omega⟩
  · have zero := no_cls_of_find? ‹_›
    split at head
    · cases head
      obtain ⟨mem, cls⟩ := cls_of_find? ‹_›
      exact ⟨mem, fun r listed => by have := zero r listed; omega⟩
    · have one := no_cls_of_find? ‹_›
      obtain ⟨mem, cls⟩ := cls_of_find? head
      exact ⟨mem, fun r listed => by have := zero r listed; have := one r listed; omega⟩

theorem queueHead_eq_none {l : List QPacket} (none : queueHead l = .none) : l = [] := by
  unfold queueHead at none
  split at none
  · cases none
  · next zero =>
    split at none
    · cases none
    · next one =>
      refine List.eq_nil_iff_forall_not_mem.mpr fun r listed => ?_
      have zero := no_cls_of_find? zero r listed
      have one := no_cls_of_find? one r listed
      have two := no_cls_of_find? none r listed
      have le := r.kind.cls_le
      omega

/-! ### When the head is looked at (R149, R150) -/

theorem mayStart_iff {s : State} : mayStart s = true ↔
    (s.station.mode = .active ∨ s.station.mode = .parked ∨ s.station.mode = .resetting) ∧ s.line.idle = true ∧
      s.ref.guardOpen = false ∧ ∀ q ∈ s.line.queue, q.sent = none := by
  simp only [mayStart, Bool.and_eq_true, Bool.or_eq_true, decide_eq_true_iff, Bool.not_eq_true', transmitting_eq_false,
    or_assoc, and_assoc]

/-- The slot as the manual counts it (R149). -/
theorem slotReached_iff {t : Moment} {s : State} {q : QPacket} (heard : s.line.lastSender ≤ 16) :
    slotReached t s q = true ↔
      s.line.idlePoint + (q.kind.cls * 16 +
        (if q.fallback = true then s.own - 1 else (s.own + 15 + 16 - s.line.lastSender) % 16)) * 10 * 3 ≤ t := by
  have index : s.own + 16 - s.line.lastSender + 15 = s.own + 15 + 16 - s.line.lastSender := by omega
  simp only [slotReached, slotOf, slotIndex, index, Config.bitTime, decide_eq_true_iff]

theorem exec_transmissionStart {t : Moment} {s : State} (may : mayStart s = true) : exec (.transmissionStart t) s =
    .next (finish (startHead (s.line.queue.length + s.line.waiting.length + 1) t s)) := if_pos may

/-! ### What becomes of the head -/

/-- A packet starts: the line, its claim or the own ITEM. -/
theorem startPacket_eq (q : QPacket) (sent : Sent) (s : State) :
    startPacket q sent s = { s with
      line := { s.line with
        idle := false, receiving := some 0,
        queue := changeFirst q (fun r => { r with sent := some sent }) s.line.queue },
      claims := (s.claims.map fun c =>
        if q.kind = .cue c.seq ∧ c.state = .planned then { c with state := .sending } else c),
      item := { s.item with own := if q.kind = .item then .sending else s.item.own } } := by
  unfold startPacket ownerStarts
  cases kind : q.kind <;> simp [State.modLine, State.modItem, State.setClaims, eq_comm]

variable {t : Moment} {s : State} {q : QPacket}

theorem startHead_waits (k : Nat) (head : queueHead s.line.queue = some q) (early : slotReached t s q = false) :
    startHead (k + 1) t s = s := by
  unfold startHead
  simp [head, early]

theorem startHead_starts (k : Nat) {sent : Sent} (head : queueHead s.line.queue = some q)
    (reached : slotReached t s q = true) (test : startTest q.kind s = .starts) (filled : fill q.kind s = some sent) :
    startHead (k + 1) t s = startPacket q sent s := by
  unfold startHead
  simp [head, reached, test, filled]

theorem startHead_givesBack (k : Nat) (head : queueHead s.line.queue = some q) (reached : slotReached t s q = true)
    (test : startTest q.kind s ≠ .starts) :
    startHead (k + 1) t s = startHead k t (giveBack q.kind (startTest q.kind s) s) := by
  conv => lhs; unfold startHead
  simp only [head, reached, if_true]
  split
  · exact absurd ‹_› test
  · rfl

theorem startHead_empty (k : Nat) (t : Moment) {s : State} (empty : s.line.queue = []) : startHead k t s = s := by
  cases k with
  | zero => rfl
  | succ k =>
    unfold startHead
    rw [empty]
    rfl

/-! ### The test of R76 -/

theorem claimToSend_spec {seq : Byte} {c : Claim} (found : claimToSend seq s = some c) :
    c ∈ s.claims ∧ c.seq = seq ∧ c.state = .planned := by
  have picked := List.find?_some found
  simp only [Bool.and_eq_true, decide_eq_true_iff, Claim.isPlanned] at picked
  exact ⟨List.mem_of_find?_eq_some found, picked⟩

theorem startTestOf_starts {c : Claim} (on : s.floor.state = .live ∨ s.floor.state = .yielding)
    (far : 4 ≤ s.dist s.n c.showAt) : startTestOf (some c) s = .starts := by
  simp [startTestOf, State.onFloor_iff.mpr on, far]

theorem startTestOf_stale {c : Claim} (on : s.floor.state = .live ∨ s.floor.state = .yielding)
    (near : s.dist s.n c.showAt < 4) : startTestOf (some c) s = .stale := by
  simp [startTestOf, State.onFloor_iff.mpr on, near]

theorem onFloor_eq_false_of (off : s.floor.state = .idle ∨ s.floor.state = .bidding) : s.onFloor = false := by
  rcases off with off | off <;> simp [State.onFloor, off]

theorem startTestOf_offFloor {c : Claim} (off : s.floor.state = .idle ∨ s.floor.state = .bidding) :
    startTestOf (some c) s = .offFloor := by
  simp [startTestOf, onFloor_eq_false_of off]

theorem startTestOf_refuses {c : Claim}
    (why : s.floor.state = .idle ∨ s.floor.state = .bidding ∨ s.dist s.n c.showAt < 4) :
    startTestOf (some c) s = .offFloor ∨ startTestOf (some c) s = .stale := by
  rcases why with idle | bidding | near
  · exact .inl (startTestOf_offFloor (.inl idle))
  · exact .inl (startTestOf_offFloor (.inr bidding))
  · cases state : s.floor.state
    · exact .inl (startTestOf_offFloor (.inl state))
    · exact .inl (startTestOf_offFloor (.inr state))
    · exact .inr (startTestOf_stale (.inl state) near)
    · exact .inr (startTestOf_stale (.inr state) near)

/-! ### A packet alone in the queue that is given back -/

/-- What an owner leaves of a line whose one packet is its own. -/
theorem removeUnstarted_alone {p : PacketKind → Bool} (alone : s.line.queue = [q]) (empty : s.line.waiting = [])
    (unsent : q.sent = none) (own : p q.kind = true) :
    removeUnstarted p s = { s with line := { s.line with queue := [] } } := by
  unfold removeUnstarted
  rw [enterWaiting_eq]
  simp [State.modLine, LineUnit.entered, alone, empty, QPacket.started, unsent, own]

theorem mem_plannedFrom {p : Claim → Bool} {l : List Claim} {c : Claim} (listed : c ∈ l) (planned : c.state = .planned)
    (picks : p c = true) : c ∈ plannedFrom p l := by
  induction l with
  | nil => cases listed
  | cons d l ih =>
    unfold plannedFrom
    split
    · rcases List.mem_cons.mp listed with rfl | later
      · exact .head _
      · exact .tail _ (List.mem_filter.mpr ⟨later, decide_eq_true planned⟩)
    · next skip =>
      rcases List.mem_cons.mp listed with rfl | later
      · exact absurd (picked_iff.mpr ⟨planned, picks⟩) skip
      · exact ih later

theorem isCueOfAny_claimToSend {c : Claim} (found : claimToSend c.seq s = some c) (kind : q.kind = .cue c.seq) :
    isCueOfAny (plannedFrom (fun d => decide (d.seq = c.seq)) s.claims) q.kind = true := by
  obtain ⟨listed, -, planned⟩ := claimToSend_spec found
  exact isCueOfAny_iff.mpr ⟨c, mem_plannedFrom listed planned (decide_eq_true rfl), kind⟩

theorem handBack_alone {c : Claim} (found : claimToSend c.seq s = some c) (kind : q.kind = .cue c.seq)
    (alone : s.line.queue = [q]) (empty : s.line.waiting = []) (unsent : q.sent = none) :
    (handBack (fun d => decide (d.seq = c.seq)) s).line.queue = [] := by
  rw [handBack_line, removeUnstarted_alone alone empty unsent (isCueOfAny_claimToSend found kind)]

theorem dropPlanned_alone {c : Claim} (found : claimToSend c.seq s = some c) (kind : q.kind = .cue c.seq)
    (alone : s.line.queue = [q]) (empty : s.line.waiting = []) (unsent : q.sent = none) :
    (dropPlanned (fun d => decide (d.seq = c.seq)) s).line.queue = [] := by
  simp only [dropPlanned, removePlanned, pushReports_frame]
  rw [removeUnstarted_alone (by exact alone) (by exact empty) unsent (isCueOfAny_claimToSend found kind)]

theorem dropRevision_alone {seq : Byte} (kind : q.kind = .revise seq) (alone : s.line.queue = [q])
    (empty : s.line.waiting = []) (unsent : q.sent = none) :
    dropRevision seq s = { s with
      line := { s.line with queue := [] },
      claims := (s.claims.map fun d => if d.seq = seq then { d with revision := none } else d) } :=
  removeUnstarted_alone (by exact alone) (by exact empty) unsent (PacketKind.isReviseOf_iff.mpr kind)

/-- The start of a head that passes the test of R76, its content at hand. -/
theorem exec_transmissionStart_starts {sent : Sent} (may : mayStart s = true) (head : queueHead s.line.queue = some q)
    (reached : slotReached t s q = true) (test : startTest q.kind s = .starts) (filled : fill q.kind s = some sent) :
    exec (.transmissionStart t) s = .next (finish (startPacket q sent s)) := by
  rw [exec_transmissionStart may, startHead_starts _ head reached test filled]

/-- A head given back whose going empties the queue: nothing more is looked at. -/
theorem exec_transmissionStart_givesBack {v : State} (may : mayStart s = true) (head : queueHead s.line.queue = some q)
    (reached : slotReached t s q = true) (test : startTest q.kind s ≠ .starts)
    (given : giveBack q.kind (startTest q.kind s) s = v) (empty : v.line.queue = []) :
    exec (.transmissionStart t) s = .next (finish v) := by
  rw [exec_transmissionStart may, startHead_givesBack _ head reached test, given, startHead_empty _ _ empty]

/-- Settles O44: the head is of the lowest class, and it waits for its slot, starts by the test of R76 or is given back. -/
theorem headStartsInItsSlot : Obligations.HeadStartsInItsSlot := by
  intro s
  refine ⟨fun q => queueHead_lowest, fun some none => some (queueHead_eq_none none), fun t held => ?_, ?_⟩
  · refine if_neg fun may => ?_
    obtain ⟨mode, idle, closed, silent⟩ := mayStart_iff.mp may
    rcases held with joining | mute | busy | guarded | ⟨q, mem, sent⟩
    · simp [joining] at mode
    · simp [mute] at mode
    · simp [busy] at idle
    · simp [guarded] at closed
    · exact sent (silent q mem)
  intro t q mode idle closed silent head heard
  have may := mayStart_iff.mpr ⟨mode, idle, closed, silent⟩
  have unsent : q.sent = none := silent q (queueHead_lowest head).1
  refine ⟨fun early => ?_, fun reached => ?_⟩
  · have early := Bool.eq_false_of_not_eq_true (mt (slotReached_iff heard).mp (Nat.not_le.mpr early))
    rw [exec_transmissionStart may, startHead_waits _ head early]
  replace reached := (slotReached_iff heard).mpr reached
  have starts := fun {sent : Sent} (test : startTest q.kind s = .starts) (filled : fill q.kind s = some sent) =>
    (exec_transmissionStart_starts may head reached test filled).trans
      (congrArg (fun v => Host.Outcome.next (finish v)) (startPacket_eq q sent s))
  refine ⟨fun seq off kind => ?_, fun forced kind => ?_, fun kind => ?_, fun kind => ?_, fun kind => ?_,
    fun c kind found on far => ?_, fun c x kind found revised on far => ?_, fun c kind found alone empty => ?_,
    fun c kind found alone empty why => ?_⟩
  · exact starts (by rw [kind]; rfl) (by rw [kind]; rfl)
  · exact starts (by rw [kind]; rfl) (by rw [kind]; rfl)
  · exact starts (by rw [kind]; rfl) (by rw [kind]; rfl)
  · exact starts (by rw [kind]; rfl) (by rw [kind]; rfl)
  · exact starts (by rw [kind]; rfl) (by rw [kind]; rfl)
  · refine starts ?_ (by rw [kind, fill, found]; rfl)
    rw [kind, startTest, found, startTestOf_starts on far]
  · refine starts ?_ (by rw [kind, fill, found, Option.map_some, revised]; rfl)
    rw [kind, startTest, found, startTestOf_starts on far]
  · refine ⟨fun on near => ?_, fun off => ?_⟩
    · have test : startTest q.kind s = .stale := by rw [kind, startTest, found, startTestOf_stale on near]
      exact exec_transmissionStart_givesBack may head reached (by rw [test]; decide) (by rw [test, kind]; rfl)
        (handBack_alone found kind alone empty unsent)
    · have test : startTest q.kind s = .offFloor := by rw [kind, startTest, found, startTestOf_offFloor off]
      exact exec_transmissionStart_givesBack may head reached (by rw [test]; decide) (by rw [test, kind]; rfl)
        (dropPlanned_alone found kind alone empty unsent)
  · have given : giveBack q.kind (startTest q.kind s) s = pushReport (.late (some c.seq)) (dropRevision c.seq s) := by
      rw [kind, startTest, found]
      rcases startTestOf_refuses (c := c) why with test | test <;> rw [test] <;> rfl
    refine exec_transmissionStart_givesBack may head reached ?_ (given.trans ?_) rfl
    · rw [kind, startTest, found]
      rcases startTestOf_refuses (c := c) why with test | test <;> rw [test] <;> decide
    · rw [dropRevision_alone kind alone empty unsent]

end Sys2Proof.Machine
end

section
/-! Packets that reach no block (R143 to R147): O47. -/

namespace Sys2Proof.Machine

variable {s : State}

/-! ### A line with nothing queued -/

theorem removeUnstarted_empty (p : PacketKind → Bool) (queue : s.line.queue = []) (waiting : s.line.waiting = []) :
    removeUnstarted p s = s := by
  have kept : ∀ f : QPacket → Bool, s.line.queue.filter f = s.line.queue := fun f => by rw [queue]; rfl
  have held : ∀ f : QPacket → Bool, s.line.waiting.filter f = s.line.waiting := fun f => by rw [waiting]; rfl
  unfold removeUnstarted
  simp only [State.modLine, kept, held]
  exact enterWaiting_of_entered (.inl waiting)

theorem dropPlanned_empty (p : Claim → Bool) (queue : s.line.queue = []) (waiting : s.line.waiting = []) :
    (dropPlanned p s).line = s.line ∧ (dropPlanned p s).item = s.item := by
  simp only [dropPlanned, removePlanned, pushReports_frame]
  rw [removeUnstarted_empty _ (by exact queue) (by exact waiting)]
  exact ⟨rfl, rfl⟩

theorem dropRevision_empty (seq : Byte) (queue : s.line.queue = []) (waiting : s.line.waiting = []) :
    dropRevision seq s = updateClaim seq (fun c => { c with revision := none }) s :=
  removeUnstarted_empty _ queue waiting

theorem lateRevisions_empty (l : List Claim) (queue : s.line.queue = []) (waiting : s.line.waiting = []) :
    (lateRevisions l s).line = s.line ∧ (lateRevisions l s).item = s.item := by
  induction l generalizing s with
  | nil => exact ⟨rfl, rfl⟩
  | cons c l ih =>
    rw [lateRevisions_cons]
    split
    · have kept : (pushReport (.late (some c.seq)) (dropRevision c.seq s)).line = s.line ∧
          (pushReport (.late (some c.seq)) (dropRevision c.seq s)).item = s.item := by
        rw [dropRevision_empty _ queue waiting]
        simp
      obtain ⟨line, item⟩ := ih (s := pushReport (.late (some c.seq)) (dropRevision c.seq s)) (kept.1 ▸ queue) (kept.1 ▸ waiting)
      exact ⟨line.trans kept.1, item.trans kept.2⟩
    · exact ih queue waiting

theorem leaveFloorClaims_empty (queue : s.line.queue = []) (waiting : s.line.waiting = []) :
    (leaveFloorClaims s).line = s.line ∧ (leaveFloorClaims s).item = s.item := by
  obtain ⟨line, item⟩ := dropPlanned_empty (fun _ => true) queue waiting
  have late := lateRevisions_empty (dropPlanned (fun _ => true) s).claims (s := dropPlanned (fun _ => true) s)
    (line ▸ queue) (line ▸ waiting)
  exact ⟨late.1.trans line, late.2.trans item⟩

theorem leaveFloorClaims_claims (s : State) : (leaveFloorClaims s).claims =
    (s.claims.filter fun c => decide (c.state ≠ .planned)).map fun c => { c with revision := none } := by
  rw [leaveFloorClaims, lateRevisions_claims_self, dropPlanned_all_claims]

/-! ### The entry into MUTE (R147, R127, R159) -/

theorem muted_line (s : State) : (muted s).line = { s.line with queue := [], waiting := [] } := by
  unfold muted
  dsimp only
  split
  · exact (leaveFloorClaims_empty rfl rfl).1
  · rfl

theorem muted_item (s : State) : (muted s).item = { s.item with own := .none } := by
  unfold muted
  dsimp only
  split
  · exact (leaveFloorClaims_empty rfl rfl).2
  · rfl

theorem muted_claims (on : s.onFloor = true) : (muted s).claims =
    (s.claims.filter fun c => decide (c.state ≠ .planned)).map fun c => { c with revision := none } := by
  unfold muted
  exact (congrArg State.claims (if_pos on)).trans (leaveFloorClaims_claims _)

theorem muted_mode (s : State) : (muted s).station.mode = .mute := by
  unfold muted
  dsimp only
  split <;> simp

/-! ### The end of an act off the floor, with nothing queued -/

/-- Off the floor, out of ACTIVE and RESETTING, with no park owed, only the FLOOR report is left to do. -/
theorem finish_quiet (idle : s.floor.state = .idle) (owed : s.floor.yieldOwed = false) (park : s.floor.parkOwed = false)
    (active : s.station.mode ≠ .active) (running : s.station.mode ≠ .resetting) (waiting : s.line.waiting = []) :
    finish s = floorReport s := by
  have parked : parkAct s = s := by simp [parkAct, parkDue, park]
  rw [finish, settle_running running, beforeDrain_idle idle owed (.inr active), parked, enterWaiting_of_entered (.inl waiting)]

/-- What stands when a twin has taken the station to MUTE. -/
theorem enterMute_spec (s : State) :
    (enterMute s).station.mode = .mute ∧ (enterMute s).line = { s.line with queue := [], waiting := [] } ∧
      (enterMute s).item = { s.item with own := .none } ∧ (enterMute s).claims = (muted s).claims ∧
      (enterMute s).floor.state = .idle ∧ (enterMute s).floor.yieldOwed = false ∧ (enterMute s).floor.parkOwed = false ∧
      (enterMute s).floor.holder ≠ some s.own := by
  have floor := resetFloor_floor (muted s)
  have own : (muted s).own = s.own := by
    unfold muted
    dsimp only
    split <;> exact State.own_congr (by simp)
  rw [own] at floor
  have mode : (resetFloor (muted s)).station = (muted s).station := by simp
  rw [enterMute_eq, mode, muted_mode, floor]
  refine ⟨rfl, ?_, ?_, by simp, rfl, rfl, rfl, Floor.leftView_ne _ _⟩
  · rw [← muted_line s]
    simp
  · rw [← muted_item s]
    simp

theorem finish_enterMute (s : State) : finish (enterMute s) = floorReport (enterMute s) := by
  obtain ⟨mode, line, -, -, idle, owed, park, -⟩ := enterMute_spec s
  exact finish_quiet idle owed park (by simp [mode]) (by simp [mode]) (by rw [line])

/-! ### What every packet's command does first -/

/-- The command of a packet is its hearing, whatever its kind. -/
theorem exec_packetCommand (p : Nat) (k : Packet) (s : State) :
    ∃ deliver, exec (packetCommand p k) s = .next (finish (hear p k deliver s)) := by
  cases k with
  | take forced => cases forced <;> exact ⟨_, rfl⟩
  | _ => exact ⟨_, rfl⟩

theorem hear_unfit {p : Nat} {k : Packet} {deliver : State → State} (valid : packetValid p k = true) (peer : p ≠ s.own)
    (unfit : packetFits s k = false) : hear p k deliver s = State.flagged .configMismatch
      { s.hearing p with line := { (s.hearing p).line with mismatch := 3 * s.fps } } := by
  have heard : markHeard p (endReception s) = s.hearing p := by
    simp [markHeard, endReception, State.hearing, setPeer, State.modLine]
  have other : ¬ p = (endReception s).own := peer
  have unfit' : ¬ packetFits (s.hearing p) k = true := by
    rw [packetFits_congr (s := s) (t := s.hearing p) rfl, unfit]
    decide
  unfold hear
  simp only [valid, other, heard, unfit', if_true, if_false]
  rfl

/-- Settles O47: the four ways of the envelope, each by what `hear` does in it; MUTE by its entry and its quiet end. -/
theorem unfitPacketsReachNoBlock : Obligations.UnfitPacketsReachNoBlock := by
  refine ⟨fun s => ⟨rfl, rfl, fun p k bad => ?_⟩, fun k s valid => ⟨fun mute => ?_, fun running => ?_⟩,
    fun p k s valid peer unfit => ?_, fun s last => ?_⟩
  · obtain ⟨deliver, eq⟩ := exec_packetCommand p k s
    rw [eq, hear_invalid bad]
    rfl
  · obtain ⟨deliver, eq⟩ := exec_packetCommand s.own k s
    rw [eq, hear_twin valid, if_pos mute]
    rfl
  · obtain ⟨deliver, eq⟩ := exec_packetCommand s.own k s
    rw [hear_twin valid, if_neg running, finish_enterMute] at eq
    obtain ⟨mode, line, item, claims, idle, -, -, holder⟩ := enterMute_spec (endReception s)
    refine ⟨_, eq, by simpa using mode, by simp [line], by simp [line], by rw [floorReport_floor]; exact idle,
      by rw [floorReport_floor]; exact holder, by simp [item], by simp, by simp, by simp, fun on => ?_⟩
    have on' : (endReception s).onFloor = true := State.onFloor_iff.mpr on
    have left := claims.trans (muted_claims on')
    simpa using left
  · obtain ⟨deliver, eq⟩ := exec_packetCommand p k s
    rw [eq, hear_unfit valid peer unfit]
  · change execMismatchCountExpiry s = _
    simp [execMismatchCountExpiry, State.modLine, last]

end Sys2Proof.Machine
end

section
/-! The stop of the packet in transmission, and what its owner does when it is given up (R152, R153): O46. -/

namespace Sys2Proof.Machine

variable {s : State}

/-! ### The packet in transmission -/

theorem started_iff {q : QPacket} : q.started = true ↔ q.sent ≠ none := by
  simp [QPacket.started, Option.isSome_iff_ne_none]

theorem started_eq_false {q : QPacket} : q.started = false ↔ q.sent = none := by simp [QPacket.started]

/-- The packet in transmission is the one that has started, wherever it stands in the queue. -/
theorem inTransmission_eq {before after : List QPacket} {q : QPacket} (queue : s.line.queue = before ++ q :: after)
    (unsent : ∀ r ∈ before, r.sent = none) (sent : q.sent ≠ none) : inTransmission s = some q := by
  have none : before.find? QPacket.started = .none :=
    List.find?_eq_none.mpr fun r mem => Bool.not_eq_true _ ▸ started_eq_false.mpr (unsent r mem)
  rw [inTransmission, queue, List.find?_append, none, List.find?_cons_of_pos (started_iff.mpr sent)]
  rfl

theorem eraseP_started {before after : List QPacket} {q : QPacket} (unsent : ∀ r ∈ before, r.sent = none)
    (sent : q.sent ≠ none) : (before ++ q :: after).eraseP QPacket.started = before ++ after := by
  have none : ∀ r ∈ before, ¬ r.started = true := fun r mem => Bool.not_eq_true _ ▸ started_eq_false.mpr (unsent r mem)
  rw [List.eraseP_append_right _ none, List.eraseP_cons_of_pos (started_iff.mpr sent)]

theorem changeFirst_started {before after : List QPacket} {q : QPacket} (f : QPacket → QPacket)
    (unsent : ∀ r ∈ before, r.sent = none) (sent : q.sent ≠ none) :
    changeFirst q f (before ++ q :: after) = before ++ f q :: after := by
  induction before with
  | nil => exact if_pos rfl
  | cons r before ih =>
    have other : ¬ r = q := fun same => sent (same ▸ unsent r (.head _))
    exact (if_neg other).trans (congrArg (r :: ·) (ih fun p mem => unsent p (.tail _ mem)))

theorem exec_readbackMismatch {q : QPacket} (sending : inTransmission s = some q) :
    exec .readbackMismatch s = .next (finish (stopAct q s)) := by
  change execReadbackMismatch s = _
  rw [execReadbackMismatch, sending]

/-! ### The stop (R152) -/

/-- The owner told of a stop: a CUE's claim returns to PLANNED, an own ITEM to QUEUED. -/
theorem ownerStops_eq (k : PacketKind) (s : State) : ownerStops k s = { s with
    claims := (s.claims.map fun c => if k = .cue c.seq ∧ c.state = .sending then { c with state := .planned } else c),
    item := { s.item with own := if k = .item then .queued else s.item.own } } := by
  unfold ownerStops
  cases k <;> simp [State.modItem, State.setClaims, eq_comm]

theorem stopAct_retries {q : QPacket} (mark : q.mark ≠ .inFlight) (few : q.attempts < 15) :
    stopAct q s = (ownerStops q.kind s).modLine fun l => { l with queue := changeFirst q QPacket.stopped l.queue } := by
  have limit : ¬ retryLimit ≤ q.attempts + 1 := by simp [retryLimit]; omega
  rw [stopAct, if_neg limit, if_neg mark]

theorem stopAct_removes {q : QPacket} (mark : q.mark = .inFlight) (few : q.attempts < 15) :
    stopAct q s = removedAtStop q.kind (leaveQueue s) := by
  have limit : ¬ retryLimit ≤ q.attempts + 1 := by simp [retryLimit]; omega
  rw [stopAct, if_neg limit, if_pos mark]

theorem stopAct_givesUp {q : QPacket} (many : 15 ≤ q.attempts) : stopAct q s =
    giveUp q.kind ((ownerStops q.kind s).modLine fun l => { l with queue := l.queue.eraseP QPacket.started }) := by
  have limit : retryLimit ≤ q.attempts + 1 := by simp [retryLimit]; omega
  rw [stopAct, if_pos limit]

/-! ### What the owner of a given-up packet does (R153) -/

theorem find?_claim_none {seq : Byte} {p : Claim → Bool} (none : ∀ c ∈ s.claims, c.seq = seq → p c = false) :
    (s.claims.find? fun c => decide (c.seq = seq) && p c) = .none := by
  refine List.find?_eq_none.mpr fun c mem picked => ?_
  simp only [Bool.and_eq_true, decide_eq_true_iff] at picked
  simp [none c mem picked.1] at picked

theorem find?_claim_some {seq : Byte} {p : Claim → Bool} (some : ∃ c ∈ s.claims, c.seq = seq ∧ p c = true) :
    ∃ c ∈ s.claims, c.seq = seq ∧ (s.claims.find? fun c => decide (c.seq = seq) && p c) = .some c := by
  obtain ⟨c, mem, own, picks⟩ := some
  obtain ⟨d, found⟩ := Option.isSome_iff_exists.mp
    (List.find?_isSome (p := fun c => decide (c.seq = seq) && p c) |>.mpr ⟨c, mem, by simp [own, picks]⟩)
  have picked := List.find?_some found
  simp only [Bool.and_eq_true, decide_eq_true_iff] at picked
  exact ⟨d, List.mem_of_find?_eq_some found, picked.1, found⟩

theorem reviseGivenUp_none {seq : Byte} (none : ∀ c ∈ s.claims, c.seq = seq → c.revision = .none) :
    reviseGivenUp seq s = s := by
  rw [reviseGivenUp, find?_claim_none fun c mem own => by rw [none c mem own]; rfl]

theorem reviseGivenUp_again {seq : Byte} {c : Claim} (found : claimToRevise seq s = some c)
    (on : s.floor.state = .live ∨ s.floor.state = .yielding) (far : 5 ≤ s.dist s.n c.showAt) :
    reviseGivenUp seq s = requestPacket (.revise seq) s := by
  rw [claimToRevise] at found
  rw [reviseGivenUp, found]
  exact if_pos (by simp [State.onFloor_iff.mpr on, far])

theorem reviseGivenUp_late {seq : Byte} {c : Claim} (found : claimToRevise seq s = some c)
    (late : ¬ ((s.floor.state = .live ∨ s.floor.state = .yielding) ∧ 5 ≤ s.dist s.n c.showAt)) :
    reviseGivenUp seq s = pushReport (.late (some seq)) (updateClaim seq (fun c => { c with revision := none }) s) := by
  rw [claimToRevise] at found
  rw [reviseGivenUp, found]
  refine if_neg ?_
  rwa [Bool.and_eq_true, State.onFloor_iff, decide_eq_true_iff]

theorem cutGivenUp_none {seq : Byte} (none : ∀ c ∈ s.claims, c.seq = seq → c.withdrawal = .none) : cutGivenUp seq s = s := by
  rw [cutGivenUp, find?_claim_none fun c mem own => by rw [none c mem own]; rfl]

/-- A claim whose CUT was given up stands again; an emptied one is LATE. -/
theorem cutGivenUp_stands {seq : Byte} {emptied : Bool} (held : ∃ c ∈ s.claims, c.seq = seq)
    (all : ∀ c ∈ s.claims, c.seq = seq → c.withdrawal ≠ none ∧ c.emptied = emptied) :
    cutGivenUp seq s = if emptied then
        pushReport (.late (some seq)) (updateClaim seq (fun c => { c with withdrawal := none, emptied := false }) s)
      else updateClaim seq (fun c => { c with withdrawal := none, emptied := false }) s := by
  obtain ⟨c, mem, own⟩ := held
  obtain ⟨d, listed, own', found⟩ :=
    find?_claim_some (s := s) (seq := seq) (p := fun c => c.withdrawal.isSome)
      ⟨c, mem, own, Option.isSome_iff_ne_none.mpr (all c mem own).1⟩
  rw [cutGivenUp, found, ← (all d listed own').2]

theorem PacketKind.isYield_iff {k : PacketKind} : k.isYield = true ↔ k = .yield := by cases k <;> simp [PacketKind.isYield]

/-- A yield still owed is queued anew where no YIELD is left on the line. -/
theorem queueYield_enterWaiting (owed : s.floor.yieldOwed = true)
    (none : ∀ r ∈ s.line.queue ++ s.line.waiting, r.kind ≠ .yield) :
    queueYield (enterWaiting s) = requestPacket .yield (enterWaiting s) := by
  have hasnt : hasPacket PacketKind.isYield (enterWaiting s) = false := by
    rw [← Bool.not_eq_true, hasPacket_iff, enterWaiting_line, LineUnit.entered_packets]
    rintro ⟨r, mem, is⟩
    exact none r mem (PacketKind.isYield_iff.mp is)
  exact if_pos ⟨by simpa using owed, hasnt⟩

/-- Settles O46: the stop by the attempt count and the mark; what the owner does by the kind. -/
theorem mismatchStopsPacket : Obligations.MismatchStopsPacket := by
  intro s before after q queue unsent told
  have stops : ∀ f : List QPacket → List QPacket, ((ownerStops q.kind s).modLine fun l => { l with queue := f l.queue }) =
      { told with line := { s.line with queue := f (before ++ q :: after) } } := fun f => by
    rw [ownerStops_eq, State.modLine, ← queue]
  refine ⟨fun sent mark few => ?_, fun sent many => ?_, fun sent many kind owed none => ?_, fun sent mark few => ?_,
    fun idle last => ?_⟩
  · rw [exec_readbackMismatch (inTransmission_eq queue unsent sent), stopAct_retries mark few,
      stops (changeFirst q QPacket.stopped), changeFirst_started _ unsent sent]
    rfl
  · intro given
    have act : stopAct q s = ownerGivesUp q.kind given := by
      rw [stopAct_givesUp many, stops (List.eraseP QPacket.started), eraseP_started unsent sent]
      rfl
    have given_dist : ∀ f, given.dist given.n f = s.dist s.n f := fun f => by
      have straps : given.straps = s.straps := by simp [given, told, State.flagged]
      have ref : given.ref = s.ref := by simp [given, told, State.flagged]
      simp only [State.dist, State.n, State.day_congr straps, ref]
    refine ⟨by rw [exec_readbackMismatch (inTransmission_eq queue unsent sent), act], fun seq kind => by rw [kind]; rfl,
      fun seq kind => ⟨fun none => ?_, ?_⟩, fun seq off kind => ?_,
      fun forced kind => ?_, fun kind => by rw [kind]; rfl, fun kind => by rw [kind]; rfl⟩
    · rw [kind]
      exact reviseGivenUp_none none
    · intro c found kept
      rw [kind]
      have far : given.dist given.n c.showAt = s.dist s.n c.showAt := given_dist c.showAt
      refine ⟨fun ⟨on, ahead⟩ => reviseGivenUp_again found on (far ▸ ahead), fun late => reviseGivenUp_late found ?_⟩
      rwa [far]
    · rw [kind]
      exact ⟨cutGivenUp_none, cutGivenUp_stands, cutGivenUp_stands⟩
    · rw [kind, ownerGivesUp]
      split
      · exact loseBid_of_bidding ‹_›
      · rfl
  · rw [exec_readbackMismatch (inTransmission_eq queue unsent sent), stopAct_givesUp many, stops (List.eraseP QPacket.started),
      eraseP_started unsent sent]
    have same : told = s := by simp [told, kind]
    rw [same, kind]
    exact congrArg (fun v => Host.Outcome.next (finish v)) (queueYield_enterWaiting owed none)
  · rw [exec_readbackMismatch (inTransmission_eq queue unsent sent), stopAct_removes mark few, leaveQueue, State.modLine, queue,
      eraseP_started unsent sent]
  · have nothing : inTransmission s = none := List.find?_eq_none.mpr fun r mem => by
      rw [queue, last, List.mem_append, List.mem_singleton] at mem
      rw [Bool.not_eq_true, started_eq_false]
      rcases mem with earlier | rfl
      · exact unsent r earlier
      · exact idle
    change execReadbackMismatch s = _
    rw [execReadbackMismatch, nothing]

end Sys2Proof.Machine
end

section
/-! The item boundary taken from a peer's ITEM (R137 to R139, R103): O41. -/

namespace Sys2Proof.Machine

/-! ### What the Block Builder's work on its text depends on -/

/-- Two states of the same straps and frame, with the same text and item number: the Block Builder does the same in both. -/
structure SameBuilder (s t : State) : Prop where
  text : t.text = s.text
  straps : t.straps = s.straps
  ref : t.ref = s.ref
  number : t.item.number = s.item.number

theorem dropOverflow_text (s : State) : (dropOverflow s).text =
    { s.text with queue := s.text.queue.drop (if blockCapacity ≤ s.text.queue.length then 1 else 0) } := by
  by_cases full : blockCapacity ≤ s.text.queue.length
  · rw [if_pos full]
    cases queue : s.text.queue with
    | nil => rw [queue] at full; cases full
    | cons b rest =>
      rw [dropOverflow_full queue full]
      simp
  · rw [if_neg full, dropOverflow_room (Nat.lt_of_not_le full)]
    rfl

/-- The text after a close: the block at the tail, the head gone before it from a full queue, the Compose Buffer empty. -/
theorem closeBlock_text (cause : CloseCause) (s : State) : (closeBlock cause s).text = { s.text with
    openText := .empty, arrival := none, idleCount := 0, nextSeq := s.text.nextSeq + 1,
    queue := s.text.queue.drop (if blockCapacity ≤ s.text.queue.length then 1 else 0) ++
      [{ seq := s.text.nextSeq, text := s.text.openText, arrival := s.text.arrival.getD s.n, closeFrame := s.n,
         cause := cause, item := s.item.number, source := .live }] } := by
  simp only [closeBlock, enterTail, pushReport_frame, State.modText, dropOverflow_text]

namespace SameBuilder
variable {s t : State}

theorem closeBlock (same : SameBuilder s t) (cause : CloseCause) :
    SameBuilder (Machine.closeBlock cause s) (Machine.closeBlock cause t) where
  text := by simp only [closeBlock_text, same.text, State.n, same.ref, same.number]
  straps := by simp [same.straps]
  ref := by simp [same.ref]
  number := by simp [same.number]

theorem modText (same : SameBuilder s t) (f : BlockBuilder → BlockBuilder) : SameBuilder (s.modText f) (t.modText f) :=
  ⟨congrArg f same.text, same.straps, same.ref, same.number⟩

theorem openBlock (same : SameBuilder s t) (w : TextWord) (a : Frame) :
    SameBuilder (Machine.openBlock w a s) (Machine.openBlock w a t) := by
  unfold Machine.openBlock
  rw [State.rowWidth_congr same.straps]
  exact same.modText _

theorem placeWord (same : SameBuilder s t) (w : TextWord) (a : Frame) :
    SameBuilder (Machine.placeWord w a s) (Machine.placeWord w a t) := by
  by_cases rows : s.text.openText.rows = []
  · rw [placeWord_opens rows, placeWord_opens (same.text ▸ rows)]
    exact same.openBlock w a
  · have rows' : t.text.openText.rows ≠ [] := by rwa [same.text]
    have closed : ¬ s.text.openText.rows.isEmpty = true := by simpa using rows
    have closed' : ¬ t.text.openText.rows.isEmpty = true := by simpa using rows'
    unfold Machine.placeWord
    rw [if_neg closed, if_neg closed', State.rowWidth_congr same.straps, same.text]
    cases Text.fit s.rowWidth s.text.openText w with
    | joins => exact same.modText _
    | opensRow2 => exact same.modText _
    | full => exact (same.closeBlock .full).openBlock w a

theorem completeWord (same : SameBuilder s t) : SameBuilder (Machine.completeWord s) (Machine.completeWord t) := by
  have frame : t.n = s.n := congrArg RefUnit.n same.ref
  unfold Machine.completeWord
  rw [same.text, frame]
  split
  · exact same
  · exact (same.modText _).placeWord _ _

theorem closeOpen (same : SameBuilder s t) (cause : CloseCause) :
    (Machine.closeOpen cause t).text = (Machine.closeOpen cause s).text := by
  have completed := same.completeWord
  unfold Machine.closeOpen
  dsimp only
  rw [completed.text]
  split
  · exact completed.text
  · exact (completed.closeBlock cause).text

end SameBuilder

/-! ### The boundary taken (R139, R103) -/

section
variable (b : Frame) (k : Byte) (s : State)

theorem takeBoundary_item : (takeBoundary b k s).item = { s.item with number := k, lastBoundary := some b } := by
  simp [takeBoundary]

theorem takeBoundary_pace :
    (takeBoundary b k s).timer.pace = if s.station.mode = .mute then s.timer.pace else .normal := by
  simp [takeBoundary]

theorem takeBoundary_text : (takeBoundary b k s).text = (closeOpen .item s).text := by simp [takeBoundary]

end

/-- What a boundary at `b` makes of the map of `s` (R103). -/
def State.itemCuts (b : Frame) (s : State) : List Cue := s.map.map fun c =>
  if 0 < s.dist c.showAt b ∧ 0 < s.dist b c.offBound then
    { c with offBound := if s.dist ((s.n + 1) % s.day) b < 0 then earlierOf s.day ((s.n + 1) % s.day) c.offBound else b }
  else c

theorem itemCut_map (b : Frame) (s : State) : (itemCut b s).map = s.itemCuts b := by
  refine List.map_congr_left fun c _ => ?_
  simp only [Bool.and_eq_true, State.isAfter_iff]
  rfl

theorem State.itemCuts_congr (b : Frame) {s t : State} (straps : t.straps = s.straps) (ref : t.ref = s.ref)
    (map : t.map = s.map) : t.itemCuts b = s.itemCuts b := by
  have frame : t.n = s.n := congrArg RefUnit.n ref
  have day := State.day_congr straps
  have dist : ∀ f g, t.dist f g = s.dist f g := fun f g => by rw [State.dist, State.dist, day]
  rw [itemCuts, map]
  refine List.map_congr_left fun c _ => ?_
  rw [dist, dist, dist, frame, day]

theorem takeBoundary_map (b : Frame) (k : Byte) (s : State) : (takeBoundary b k s).map = s.itemCuts b := by
  rw [takeBoundary, itemCut_map]
  exact State.itemCuts_congr b (by simp) (by simp) (by simp)

theorem closeOpen_modItem_pacing (cause : CloseCause) (f : ItemState → ItemState) (s : State) :
    ((closeOpen cause s).modItem f).pacing = s.pacing := by simp

theorem takeBoundary_holding (b : Frame) (k : Byte) {s : State} (holding : s.pacing.holding = true) :
    (takeBoundary b k s).pacing = s.pacing := by
  have same : ∀ f, (reflectAtItem ((closeOpen .item s).modItem f)).pacing = s.pacing := fun f => by
    rw [reflectAtItem_holding (by simpa using holding), closeOpen_modItem_pacing]
  simp [takeBoundary, same]

theorem takeBoundary_pacing (b : Frame) (k : Byte) {s : State} (crossed : s.pacing.active.Crossed)
    (free : s.pacing.holding = false) :
    (takeBoundary b k s).pacing = { s.pacing.applyAtItem with active := s.pacing.applyAtItem.active.crossLimited } := by
  have same : ∀ f, (reflectAtItem ((closeOpen .item s).modItem f)).pacing =
      { s.pacing.applyAtItem with active := s.pacing.applyAtItem.active.crossLimited } := fun f => by
    rw [reflectAtItem_eq (by simpa using crossed) (by simpa using free), enforceLimits_eq]
    split
    · next limited =>
      simp only [State.modPacing, closeOpen_modItem_pacing] at limited ⊢
      rw [limited]
    · simp
  simp [takeBoundary, same]

/-! ### Duplicates, and the own request dropped (R137, R138) -/

theorem isDuplicate_of {s : State} {a b : Frame} (last : s.item.lastBoundary = some a) (low : -2 ≤ s.dist a b)
    (high : s.dist a b ≤ 2) : isDuplicate s b = true := by simp [isDuplicate, last, low, high]

theorem isDuplicate_eq_false {s : State} {b : Frame} (far : ∀ a ∈ s.item.lastBoundary, s.dist a b < -2 ∨ 2 < s.dist a b) :
    isDuplicate s b = false := by
  unfold isDuplicate
  split
  · next a last =>
    have far := far a last
    simp only [Bool.and_eq_false_iff, decide_eq_false_iff_not]
    omega
  · rfl

theorem dropOwnItem_none {s : State} (own : s.item.own = .none ∨ s.item.own = .sending) : dropOwnItem s = s :=
  if_neg (by rcases own with own | own <;> simp [own])

theorem dropOwnItem_eq {s : State} (own : s.item.own = .waiting ∨ s.item.own = .queued) :
    dropOwnItem s = (removeUnstarted PacketKind.isItem s).modItem fun i => { i with own := .none } := if_pos own

theorem dropOwnItem_item (s : State) :
    (dropOwnItem s).item = { s.item with own := if s.item.own = .sending then .sending else .none } := by
  have number : ∀ p, (removeUnstarted p s).item.number = s.item.number ∧
      (removeUnstarted p s).item.lastBoundary = s.item.lastBoundary := fun p => by
    rw [removeUnstarted, enterWaiting_eq]
    exact ⟨rfl, rfl⟩
  have kept : ∀ o, s.item.own = o → s.item = { s.item with own := o } := fun o eq => by rw [← eq]
  cases own : s.item.own
  case waiting | queued => rw [dropOwnItem_eq (by simp [own])]; simp [State.modItem, number]
  case none => exact (congrArg State.item (dropOwnItem_none (.inl own))).trans (kept _ own)
  case sending => exact (congrArg State.item (dropOwnItem_none (.inr own))).trans (kept _ own)

theorem PacketKind.isItem_iff {k : PacketKind} : k.isItem = true ↔ k = .item := by cases k <;> simp [PacketKind.isItem]

/-- What an owner leaves of the queue, by the kind it removes. -/
theorem filter_started_or {p : PacketKind → Bool} {k : PacketKind} (own : ∀ {j}, p j = true ↔ j = k) (l : List QPacket) :
    (l.filter fun q => q.started || !p q.kind) = l.filter fun q => decide (q.sent ≠ none ∨ q.kind ≠ k) := by
  refine List.filter_congr fun q _ => ?_
  rw [Bool.eq_iff_iff, Bool.or_eq_true, started_iff, Bool.not_eq_true', ← Bool.not_eq_true, own, decide_eq_true_iff]

theorem filter_not_kind {p : PacketKind → Bool} {k : PacketKind} (own : ∀ {j}, p j = true ↔ j = k) (l : List QPacket) :
    (l.filter fun q => !p q.kind) = l.filter fun q => decide (q.kind ≠ k) := by
  refine List.filter_congr fun q _ => ?_
  rw [Bool.eq_iff_iff, Bool.not_eq_true', ← Bool.not_eq_true, own, decide_eq_true_iff]

/-- Settles O41: a duplicate stops at `takeItem`'s test; another is the own request dropped, then the boundary taken. -/
theorem itemBoundaryIsTaken : Obligations.ItemBoundaryIsTaken := by
  intro p b k s delivered
  have heard : exec (.itemPacket p b k) s = .next (finish (takeItem false b k (s.hearing p))) :=
    congrArg (fun v => Host.Outcome.next (finish v)) (hear_delivered delivered)
  refine ⟨fun a last low high => ?_, fun far => ⟨takeBoundary b k (dropOwnItem (s.hearing p)), ?_, ?_, ?_, fun empty => ?_,
    fun held => ?_, ⟨fun own => ?_, fun own => ?_⟩, by simp, by simp, by simp, by simp, by simp, fun holding => ?_,
    fun free legal => ?_, ?_⟩⟩
  · rw [heard, takeItem, if_pos (isDuplicate_of (s := s.hearing p) last low high)]
  · have other : ¬ isDuplicate (s.hearing p) b = true := Bool.not_eq_true _ ▸ isDuplicate_eq_false far
    rw [heard, takeItem, if_neg other]
    rfl
  · rw [takeBoundary_item, dropOwnItem_item]
    rfl
  · rw [takeBoundary_pace]
    simp
  · rw [takeBoundary_text, closeOpen_empty (by simpa using empty)]
    simp
  · have same : SameBuilder s (dropOwnItem (s.hearing p)) :=
      ⟨by simp, by simp, by simp, by rw [dropOwnItem_item]; rfl⟩
    have closed : (takeBoundary b k (dropOwnItem (s.hearing p))).text = (closeBlock .item (completeWord s)).text := by
      rw [takeBoundary_text, same.closeOpen, closeOpen_nonempty held]
    rw [closed]
    refine ⟨rfl, ?_, ?_⟩
    · simp [BlockBuilder.composeEmpty, closeBlock_text, Text.hasWord, Text.empty]
    · rw [closeBlock_text]
      exact ⟨_, _, rfl, rfl, by simp, rfl, rfl⟩
  · rw [dropOwnItem_none (by exact own)]
    simp
  · have line : (takeBoundary b k (dropOwnItem (s.hearing p))).line = (removeUnstarted PacketKind.isItem (s.hearing p)).line := by
      rw [dropOwnItem_eq (by exact own)]
      simp
    rw [line]
    refine ⟨?_, fun q mem kind unsent => ?_⟩
    · rw [removeUnstarted_line, filter_started_or PacketKind.isItem_iff, filter_not_kind PacketKind.isItem_iff]
      rfl
    · have other := (mem_packets_removeUnstarted (s := s.hearing p) mem).2 unsent
      rw [kind] at other
      cases other
  · rw [takeBoundary_holding b k (by simpa using holding)]
    simp
  · rw [takeBoundary_pacing b k (by simpa using legal.crossed) (by simpa using free)]
    simp [PacingSet.applyAtItem]
  · rw [takeBoundary_map]
    exact State.itemCuts_congr b (by simp) (by simp) (by simp)

end Sys2Proof.Machine
end

section
/-! A peer's CUE, REVISE and CUT on the Row Map, and the test for overtaken claims (R90, R93, R102, R73): O48. -/

namespace Sys2Proof.Machine

/-- The end of a cue on a packet of the peer's own cue is no concern of the Claim List (R105). -/
theorem cueGone_peer {c : Cue} {s : State} (why : MapEnd) (peer : c.owner ≠ s.own) : cueGone why c s = s := if_neg peer

theorem findCue_eq_none {owner : Nat} {seq : Byte} {s : State} :
    findCue owner seq s = none ↔ ∀ d ∈ s.map, ¬ (d.owner = owner ∧ d.seq = seq) := by
  simp only [findCue, List.find?_eq_none, Cue.isOf_iff]

theorem findCue_isSome {owner : Nat} {seq : Byte} {s : State} :
    (findCue owner seq s).isSome = true ↔ ∃ d ∈ s.map, d.owner = owner ∧ d.seq = seq := by
  simp only [findCue, List.find?_isSome, Cue.isOf_iff]

theorem withoutCue_eq (owner : Nat) (seq : Byte) (l : List Cue) :
    withoutCue owner seq l = l.filter fun d => decide (¬ (d.owner = owner ∧ d.seq = seq)) := by
  refine List.filter_congr fun d _ => ?_
  rw [Bool.eq_iff_iff, Bool.not_eq_true', ← Bool.not_eq_true, Cue.isOf_iff, decide_eq_true_iff]

theorem State.atOrBefore_iff (s : State) (a b : Frame) : atOrBefore s.day a b = true ↔ 0 ≤ s.dist a b := by
  simp [atOrBefore, State.dist]

/-! ### The CUT (R102) -/

theorem mapCut_withdraws {p : Nat} {seq : Byte} {off : Frame} {s : State} {c : Cue} (peer : p ≠ s.own)
    (found : findCue p seq s = some c) (early : 0 ≤ s.dist off c.showAt) :
    mapCut p seq off s = { s with map := s.map.filter fun d => decide (¬ (d.owner = p ∧ d.seq = seq)) } := by
  have owner := (findCue_mem found).2.1
  rw [mapCut, found]
  refine (if_pos ((s.atOrBefore_iff _ _).mpr early)).trans ?_
  rw [cueGone_peer _ (by rw [owner]; exact peer), withoutCue_eq]
  rfl

theorem mapCut_shortens {p : Nat} {seq : Byte} {off : Frame} {s : State} {c : Cue} (found : findCue p seq s = some c)
    (late : s.dist off c.showAt < 0) :
    mapCut p seq off s = { s with map := s.map.map fun d => if d.owner = p ∧ d.seq = seq then
      { d with offBound :=
        if s.dist ((s.n + 1) % s.day) (earlierOf s.day d.offBound off) < 0 then
          earlierOf s.day ((s.n + 1) % s.day) d.offBound
        else earlierOf s.day d.offBound off } else d } := by
  rw [mapCut, found]
  refine (if_neg (mt (s.atOrBefore_iff _ _).mp (Int.not_le.mpr late))).trans ?_
  simp only [Cue.isOf_iff]
  rfl

theorem mapCut_unknown {p : Nat} {seq : Byte} (off : Frame) {s : State} (none : findCue p seq s = none) :
    mapCut p seq off s = s := by rw [mapCut, none]

/-! ### The overtaken test (R73) -/

theorem overtakenBy_iff {s : State} {c : Claim} {d : Cue} : overtakenBy s c d = true ↔ d.owner ≠ s.own ∧
    d.low < c.low + c.count ∧ c.low < d.low + d.count ∧ 0 < s.dist s.n d.minOff ∧
      0 < s.dist c.showAt (s.plus d.minOff c.gap) := by
  simp only [overtakenBy, spansShare, Bool.and_eq_true, Bool.not_eq_true', decide_eq_false_iff_not, decide_eq_true_iff,
    State.isAfter_iff, and_assoc, ne_eq]

/-- Settles O48: each packet by what it makes of the map, then the end of its work. -/
theorem cuePacketsReachMap : Obligations.CuePacketsReachMap := by
  refine ⟨fun p b s => ⟨fun delivered => ?_, fun delivered unknown => ?_, fun delivered known => ?_⟩,
    fun p seq off s delivered => ⟨fun c found early => ?_, fun c found late => ?_, fun unknown => ?_⟩, fun s => ?_⟩
  · exact congrArg (fun v => Host.Outcome.next (finish v)) (hear_delivered delivered)
  · have fresh : mapRevise p b (s.hearing p) = mapCue p b (s.hearing p) :=
      if_neg fun some => by
        obtain ⟨d, mem, own⟩ := findCue_isSome.mp some
        exact unknown d mem own
    rw [← fresh]
    exact congrArg (fun v => Host.Outcome.next (finish v)) (hear_delivered delivered)
  · have stands : mapRevise p b (s.hearing p) = s.hearing p := if_pos (findCue_isSome.mpr known)
    rw [← stands]
    refine (congrArg (fun v => Host.Outcome.next (finish v)) (hear_delivered delivered)).trans ?_
    rw [stands, takeRevise, stands]
  · exact congrArg (fun v => Host.Outcome.next (finish v)) ((hear_delivered delivered).trans
      (mapCut_withdraws (s := s.hearing p) delivered.2.1 found early))
  · exact congrArg (fun v => Host.Outcome.next (finish v)) ((hear_delivered delivered).trans
      (mapCut_shortens (s := s.hearing p) found late))
  · exact congrArg (fun v => Host.Outcome.next (finish v)) ((hear_delivered delivered).trans
      (mapCut_unknown off (s := s.hearing p) (findCue_eq_none.mpr unknown)))
  · rw [overtakenTest]
    refine congrArg (fun p => handBack p s) (funext fun c => ?_)
    rw [Bool.eq_iff_iff, List.any_eq_true, decide_eq_true_iff]
    simp only [overtakenBy_iff]

end Sys2Proof.Machine
end

section
/-! A cue entered in the Row Map (R82, R90 to R92, R95, R97, R98): O49. -/

namespace Sys2Proof.Machine

/-! ### Eviction (R92) -/

theorem evictBefore_iff {s : State} {a d : Cue} : evictBefore s.day s.n a d = true ↔
    s.dist s.n a.offBound < s.dist s.n d.offBound ∨
      (s.dist s.n a.offBound = s.dist s.n d.offBound ∧ (s.dist s.n a.showAt < s.dist s.n d.showAt ∨
        (s.dist s.n a.showAt = s.dist s.n d.showAt ∧ a.owner < d.owner))) := by
  simp only [evictBefore, State.dist, Bool.or_eq_true, Bool.and_eq_true, decide_eq_true_iff]

theorem evictBefore_asymm {s : State} {a d : Cue} (first : evictBefore s.day s.n a d = true) :
    ¬ evictBefore s.day s.n d a = true := by
  rw [evictBefore_iff] at first ⊢
  omega

/-- What is not evicted before another is not evicted before what that one is not evicted before either. -/
theorem evictBefore_negTrans {s : State} {a d e : Cue} (first : ¬ evictBefore s.day s.n e d = true)
    (second : ¬ evictBefore s.day s.n d a = true) : ¬ evictBefore s.day s.n e a = true := by
  rw [evictBefore_iff] at first second ⊢
  omega

theorem pickEvicted_first {s : State} {l : List Cue} {v : Cue} (picked : pickEvicted s.day s.n l = some v) :
    ∀ d ∈ l, ¬ evictBefore s.day s.n d v = true := by
  induction l generalizing v with
  | nil => cases picked
  | cons c l ih =>
    unfold pickEvicted at picked
    intro d mem
    split at picked
    · next e some =>
      split at picked <;> cases picked
      · next before =>
        rcases List.mem_cons.mp mem with rfl | later
        · exact evictBefore_asymm before
        · exact ih some d later
      · next notBefore =>
        rcases List.mem_cons.mp mem with rfl | later
        · exact fun self => evictBefore_asymm self self
        · exact evictBefore_negTrans (ih some d later) notBefore
    · next none =>
      cases picked
      rcases List.mem_cons.mp mem with rfl | later
      · exact fun self => evictBefore_asymm self self
      · obtain ⟨w, some⟩ := pickEvicted_isSome (day := s.day) (n := s.n) later
        rw [some] at none
        cases none

theorem Cue.covers_iff {c : Cue} {row : Nat} : c.covers row = true ↔ c.low ≤ row ∧ row < c.low + c.count := by
  simp [Cue.covers]

theorem rowEntries_eq (s : State) (row : Nat) :
    rowEntries s row = s.map.filter fun d => decide (d.low ≤ row ∧ row < d.low + d.count) := by
  refine List.filter_congr fun d _ => ?_
  rw [Bool.eq_iff_iff, Cue.covers_iff, decide_eq_true_iff]

theorem makeRowRoom_free (inHand : Cue → Bool) {row : Nat} {s : State} (free : (rowEntries s row).length < rowCapacity) :
    makeRowRoom inHand row s = s := if_neg (Nat.not_le.mpr free)

theorem makeRowRoom_evicts {inHand : Cue → Bool} {row : Nat} {s : State} (full : rowCapacity ≤ (rowEntries s row).length)
    (candidate : ∃ d ∈ rowEntries s row, inHand d = false) :
    ∃ v ∈ rowEntries s row, inHand v = false ∧
      (∀ d ∈ rowEntries s row, inHand d = false → ¬ evictBefore s.day s.n d v = true) ∧
      makeRowRoom inHand row s = cueGone .plain v ((s.setMap (withoutCue v.owner v.seq s.map)).flag .mapFull) := by
  obtain ⟨d, mem, free⟩ := candidate
  have listed : ∀ e, e ∈ rowEntries s row → inHand e = false → e ∈ (rowEntries s row).filter fun c => !inHand c :=
    fun e mem free => List.mem_filter.mpr ⟨mem, by simp [free]⟩
  obtain ⟨v, picked⟩ := pickEvicted_isSome (day := s.day) (n := s.n) (listed d mem free)
  obtain ⟨on, other⟩ := List.mem_filter.mp (pickEvicted_mem picked)
  refine ⟨v, on, by simpa using other, fun e mem free => pickEvicted_first picked e (listed e mem free), ?_⟩
  rw [makeRowRoom, if_pos full, picked]

/-! ### The end of an own cue's claim after a conflict (R82) -/

theorem echoed_iff {c : Claim} : c.echoed = true ↔ c.state = .claimed ∨ c.state = .onAir := by
  simp [Claim.echoed]

theorem findEchoed_none {seq : Byte} {s : State}
    (none : ∀ c ∈ s.claims, ¬ (c.seq = seq ∧ (c.state = .claimed ∨ c.state = .onAir))) : findEchoed seq s = .none := by
  refine List.find?_eq_none.mpr fun c mem picked => none c mem ?_
  rwa [Bool.and_eq_true, decide_eq_true_iff, echoed_iff] at picked

theorem findEchoed_first {seq : Byte} {s : State} {before after : List Claim} {c : Claim}
    (claims : s.claims = before ++ c :: after)
    (none : ∀ d ∈ before, ¬ (d.seq = seq ∧ (d.state = .claimed ∨ d.state = .onAir)))
    (ends : c.seq = seq ∧ (c.state = .claimed ∨ c.state = .onAir)) : findEchoed seq s = some c := by
  have skipped : (before.find? fun c => decide (c.seq = seq) && c.echoed) = .none := by
    refine List.find?_eq_none.mpr fun d mem picked => none d mem ?_
    rwa [Bool.and_eq_true, decide_eq_true_iff, echoed_iff] at picked
  have here : (decide (c.seq = seq) && c.echoed) = true := by
    rwa [Bool.and_eq_true, decide_eq_true_iff, echoed_iff]
  rw [findEchoed, claims, List.find?_append, skipped,
    List.find?_cons_of_pos (p := fun c : Claim => decide (c.seq = seq) && c.echoed) here]
  rfl

theorem cutAllowed_iff {s : State} : s.cutAllowed = true ↔ s.station.mode = .active ∨ s.station.mode = .resetting := by
  simp [State.cutAllowed]

theorem conflictLoss_none {seq : Byte} {s : State} (none : findEchoed seq s = .none) : conflictLoss seq s = s := by
  rw [conflictLoss, none]

theorem conflictLoss_some {seq : Byte} {s : State} {c : Claim} (found : findEchoed seq s = some c) : conflictLoss seq s =
    if c.withdrawal = none ∧ (s.station.mode = .active ∨ s.station.mode = .resetting) then
      queueCut seq (if c.state = .claimed then c.showAt else s.plus s.n 4) .none (endClaim seq s)
    else endClaim seq s := by
  have allowed : (endClaim seq s).cutAllowed = s.cutAllowed := by simp [State.cutAllowed]
  have frame : (endClaim seq s).plus (endClaim seq s).n 4 = s.plus s.n 4 := by
    simp only [State.plus, State.n, State.day_congr (t := endClaim seq s) (s := s) (by simp), endClaim_frame]
  rw [conflictLoss, found]
  dsimp only
  simp only [allowed, frame, Bool.and_eq_true, cutAllowed_iff, Option.isNone_iff_eq_none]

/-! ### A cue entered where the rows have room -/

theorem filter_insertCue {p : Cue → Bool} {c : Cue} (out : p c = false) (day n : Nat) (l : List Cue) :
    (insertCue day n c l).filter p = l.filter p := by
  induction l with
  | nil => simp [insertCue, out]
  | cons d l ih =>
    unfold insertCue
    split
    · rw [List.filter_cons_of_neg (by simp [out])]
    · rw [List.filter_cons, List.filter_cons, ih]

theorem makeEntries_free (inHand : Cue → Bool) {c : Cue} {s : State} (low : (rowEntries s c.low).length < rowCapacity)
    (high : c.count = 2 → (rowEntries s (c.low + 1)).length < rowCapacity) :
    makeEntries inHand c s = s.setMap (insertCue s.day s.n c s.map) := by
  have made : roomMade inHand c s = s := by
    unfold roomMade
    rw [makeRowRoom_free inHand low]
    split
    · exact makeRowRoom_free inHand (high ‹_›)
    · rfl
  rw [makeEntries_eq, made]

theorem conflicts_iff {s : State} {d c : Cue} : conflicts s.day d c = true ↔
    (d.low < c.low + c.count ∧ c.low < d.low + d.count) ∧ 0 < s.dist d.showAt c.minOff ∧ 0 < s.dist c.showAt d.minOff := by
  simp only [conflicts, Cue.shares, spansShare, Bool.and_eq_true, decide_eq_true_iff, State.isAfter_iff, and_assoc]

theorem preferred_iff {s : State} {d c : Cue} : preferred s.day d c = true ↔
    0 < s.dist d.showAt c.showAt ∨ (s.dist d.showAt c.showAt = 0 ∧ d.owner < c.owner) := by
  simp only [preferred, Bool.or_eq_true, Bool.and_eq_true, decide_eq_true_iff, State.isAfter_iff]
  rfl

section
variable {c : Cue} {s : State}

/-- The map with `c` in it and without what it conflicts with. -/
def State.standing (c : Cue) (s : State) : List Cue :=
  (insertCue s.day s.n c s.map).filter fun d => d.same c || !conflicts s.day d c

theorem mem_standing {d : Cue} (others : ∀ d ∈ s.map, d.same c = false) :
    d ∈ s.standing c ↔ d = c ∨ (d ∈ s.map ∧ conflicts s.day d c = false) := by
  rw [State.standing, List.mem_filter, (insertCue_perm _ _ _ _).mem_iff, List.mem_cons]
  constructor
  · rintro ⟨rfl | mem, stands⟩
    · exact .inl rfl
    · exact .inr ⟨mem, by simpa [others d mem] using stands⟩
  · rintro (rfl | ⟨mem, apart⟩)
    · exact ⟨.inl rfl, by simp [Cue.same_self]⟩
    · exact ⟨.inr mem, by simp [apart]⟩

theorem against_insertCue (others : ∀ d ∈ s.map, d.same c = false) :
    ((insertCue s.day s.n c s.map).filter fun d => !d.same c && conflicts s.day d c) =
      s.map.filter fun d => conflicts s.day d c := by
  rw [filter_insertCue (by simp [Cue.same_self])]
  exact List.filter_congr fun d mem => by simp [others d mem]

theorem conflictTest_loses (others : ∀ d ∈ s.map, d.same c = false)
    (beaten : ∃ d ∈ s.map, conflicts s.day d c = true ∧ preferred s.day d c = true) :
    conflictTest c (s.setMap (insertCue s.day s.n c s.map)) = cueGone .conflict c s := by
  obtain ⟨d, mem, clash, wins⟩ := beaten
  have left : withoutCue c.owner c.seq (insertCue s.day s.n c s.map) = s.map := by
    rw [withoutCue, filter_insertCue (by simp [Cue.isOf_iff])]
    exact List.filter_eq_self.mpr fun d mem => by simpa [Cue.same] using others d mem
  unfold conflictTest
  refine (if_pos ?_).trans (congrArg (fun m => cueGone .conflict c (s.setMap m)) left)
  rw [List.any_eq_true]
  refine ⟨d, ?_, wins⟩
  exact (against_insertCue others).symm ▸ List.mem_filter.mpr ⟨mem, clash⟩

theorem conflictTest_wins (others : ∀ d ∈ s.map, d.same c = false)
    (unbeaten : ∀ d ∈ s.map, conflicts s.day d c = true → ¬ preferred s.day d c = true) :
    conflictTest c (s.setMap (insertCue s.day s.n c s.map)) =
      cuesGone .conflict (s.map.filter fun d => conflicts s.day d c) (s.setMap (s.standing c)) := by
  unfold conflictTest
  refine (if_neg ?_).trans ?_
  · rw [List.any_eq_true]
    rintro ⟨d, mem, wins⟩
    have mem := against_insertCue others ▸ mem
    obtain ⟨mem, clash⟩ := List.mem_filter.mp mem
    exact unbeaten d mem clash wins
  · exact congrArg (fun l => cuesGone .conflict l (s.setMap (s.standing c))) (against_insertCue others)

/-! ### Displacement -/

theorem boundNeighbours_absent (absent : ∀ d ∈ s.map, d.same c = false) : boundNeighbours c s = s := by
  have none : findCue c.owner c.seq s = none :=
    findCue_eq_none.mpr fun d mem own => Bool.false_ne_true ((absent d mem).symm.trans (Cue.same_iff.mpr own))
  rw [boundNeighbours, none]

theorem boundNeighbours_present (present : c ∈ s.map) (one : ∀ d ∈ s.map, d.same c = true → d = c) :
    boundNeighbours c s = s.setMap (s.map.map fun d =>
      if d.same c then s.map.foldl (boundByLater s.day s.n) c else boundEarlier s.day s.n c d) := by
  obtain ⟨e, found⟩ := Option.isSome_iff_exists.mp (findCue_isSome.mpr ⟨c, present, rfl, rfl⟩)
  obtain ⟨mem, own⟩ := findCue_mem found
  have same : e = c := one e mem (Cue.same_iff.mpr own)
  rw [boundNeighbours, found, same]

end

/-! ### Its own bound (R95, second case) -/

section
variable {day n : Nat} {c : Cue}

theorem Cue.shares_iff {d c : Cue} : d.shares c = true ↔ d.low < c.low + c.count ∧ c.low < d.low + d.count := by
  simp [Cue.shares, spansShare]

/-- The neighbour is on no row of the cue, or its show is not later. -/
def Cue.NoLater (day : Nat) (c d : Cue) : Prop :=
  d.same c = true ∨ ¬ d.shares c = true ∨ ¬ isAfter day c.showAt d.showAt = true

theorem boundByLater_noLater {d : Cue} (none : c.NoLater day d) : boundByLater day n c d = c := by
  unfold boundByLater
  refine if_neg ?_
  simp only [Bool.and_eq_true, Bool.not_eq_true']
  rintro ⟨⟨⟨other, shares⟩, later⟩, -⟩
  rcases none with same | apart | early
  · exact Bool.false_ne_true (other.symm.trans same)
  · exact apart shares
  · exact early later

theorem foldl_boundByLater_noLater {l : List Cue} (none : ∀ d ∈ l, c.NoLater day d) :
    l.foldl (boundByLater day n) c = c := by
  induction l with
  | nil => rfl
  | cons d l ih =>
    rw [List.foldl_cons, boundByLater_noLater (none d (.head _))]
    exact ih fun e mem => none e (.tail _ mem)

theorem Cue.NoLater.rebound {d e : Cue} (none : c.NoLater day d) (rebound : c.Rebound e) : e.NoLater day d := by
  unfold Cue.Rebound at rebound
  rw [rebound]
  exact none

/-- One later neighbour alone sets the bound. -/
theorem foldl_boundByLater_one {l : List Cue} {m : Cue} (distinct : l.Nodup) (mem : m ∈ l)
    (none : ∀ d ∈ l, d ≠ m → c.NoLater day d) : l.foldl (boundByLater day n) c = boundByLater day n c m := by
  obtain ⟨before, after, rfl⟩ := List.append_of_mem mem
  have apart := (List.nodup_middle.mp distinct)
  have other : ∀ d ∈ before ++ after, d ≠ m := fun d listed same => (List.nodup_cons.mp apart).1 (same ▸ listed)
  have earlier : before.foldl (boundByLater day n) c = c :=
    foldl_boundByLater_noLater fun d listed => none d (by simp [listed]) (other d (List.mem_append_left _ listed))
  rw [List.foldl_append, earlier, List.foldl_cons]
  refine foldl_boundByLater_noLater fun d listed => Cue.NoLater.rebound (c := c) ?_ (boundByLater_rebound day n c m)
  exact none d (by simp [listed]) (other d (List.mem_append_right _ listed))

theorem boundByLater_later {m : Cue} (other : m.same c = false) (shares : m.shares c = true)
    (later : isAfter day c.showAt m.showAt = true) : boundByLater day n c m =
      { c with offBound := if isAfter day (subFrames day m.showAt m.gap) c.offBound = true then
          clampBound day n c.offBound (earlierOf day (laterOf day c.minOff (subFrames day m.showAt m.gap)) c.offBound)
        else c.offBound } := by
  unfold boundByLater
  dsimp only
  rw [other, shares, later]
  simp only [Bool.not_false, Bool.true_and]
  split <;> rfl

/-- The bound set on a neighbour with an earlier show (R95, first case), or none. -/
theorem boundEarlier_stays {d : Cue} (stays : ¬ d.shares c = true ∨ ¬ isAfter day d.showAt c.showAt = true ∨
    ¬ isAfter day (subFrames day c.showAt c.gap) d.offBound = true) : boundEarlier day n c d = d := by
  unfold boundEarlier
  refine if_neg ?_
  simp only [Bool.and_eq_true]
  rintro ⟨⟨⟨-, shares⟩, early⟩, beyond⟩
  rcases stays with apart | late | within
  · exact apart shares
  · exact late early
  · exact within beyond

theorem boundEarlier_moves {d : Cue} (other : d.same c = false) (shares : d.shares c = true)
    (early : isAfter day d.showAt c.showAt = true) (beyond : isAfter day (subFrames day c.showAt c.gap) d.offBound = true) :
    boundEarlier day n c d = { d with
      offBound := clampBound day n d.offBound
        (earlierOf day (laterOf day d.minOff (subFrames day c.showAt c.gap)) d.offBound) } := by
  unfold boundEarlier
  exact if_pos (by rw [other, shares, early, beyond]; rfl)

end

/-! ### The cue of a packet -/

/-- The notices of several cues lost to a conflict, in the order of the map. -/
theorem cuesGone_conflict (l : List Cue) {own : Nat} {s : State} (same : s.own = own) : cuesGone .conflict l s =
    l.foldl (fun u d => if d.owner = own then conflictLoss d.seq u else u) s := by
  induction l generalizing s with
  | nil => rfl
  | cons c l ih =>
    rw [cuesGone, ih ((State.own_congr (by simp)).trans same), List.foldl_cons, cueGone, same]

/-- The map without the identity of a packet's cue. -/
def State.without (p : Nat) (b : CueBody) (s : State) : State := s.setMap (withoutCue p b.seq s.map)

section
variable {p : Nat} {b : CueBody} {s : State}

theorem without_other : ∀ d ∈ (s.without p b).map, d.same (cueOf p b) = false :=
  fun _ mem => (mem_withoutCue.mp mem).2

theorem mapCue_free (free : ∀ row, ((rowEntries s row).filter fun d => decide (¬ (d.owner = p ∧ d.seq = b.seq))).length < 8) :
    mapCue p b s = boundNeighbours (cueOf p b) (conflictTest (cueOf p b) ((s.without p b).setMap
      (insertCue s.day s.n (cueOf p b) (s.without p b).map))) := by
  have rows : ∀ row, (rowEntries (s.without p b) row).length < rowCapacity := fun row => by
    have eq : rowEntries (s.without p b) row =
        (rowEntries s row).filter fun d => decide (¬ (d.owner = p ∧ d.seq = b.seq)) := by
      simp only [rowEntries, State.without, State.setMap, withoutCue_eq, List.filter_filter, Bool.and_comm]
    rw [eq]
    exact free row
  exact congrArg (fun u => boundNeighbours (cueOf p b) (conflictTest (cueOf p b) u))
    (makeEntries_free (s := s.without p b) _ (rows _) fun _ => rows _)

/-- A cue that a preferred one beats is not kept, and nothing else goes. -/
theorem mapCue_loses (free : ∀ row, ((rowEntries s row).filter fun d => decide (¬ (d.owner = p ∧ d.seq = b.seq))).length < 8)
    (beaten : ∃ d ∈ (s.without p b).map, conflicts s.day d (cueOf p b) = true ∧ preferred s.day d (cueOf p b) = true) :
    mapCue p b s = cueGone .conflict (cueOf p b) (s.without p b) := by
  have lost := conflictTest_loses (s := s.without p b) without_other beaten
  have eq : mapCue p b s = boundNeighbours (cueOf p b) (cueGone .conflict (cueOf p b) (s.without p b)) :=
    (mapCue_free free).trans (congrArg _ lost)
  rw [eq, boundNeighbours_absent]
  intro d mem
  simp only [cueGone_frame] at mem
  exact without_other d mem

/-- A cue that none beats is kept: the cues it conflicts with go, and the bounds are set. -/
theorem mapCue_wins (free : ∀ row, ((rowEntries s row).filter fun d => decide (¬ (d.owner = p ∧ d.seq = b.seq))).length < 8)
    (unbeaten : ∀ d ∈ (s.without p b).map, conflicts s.day d (cueOf p b) = true → ¬ preferred s.day d (cueOf p b) = true) :
    mapCue p b s = (cuesGone .conflict ((s.without p b).map.filter fun d => conflicts s.day d (cueOf p b))
      ((s.without p b).setMap ((s.without p b).standing (cueOf p b)))).setMap
        (((s.without p b).standing (cueOf p b)).map fun d =>
          if d.same (cueOf p b) then ((s.without p b).standing (cueOf p b)).foldl (boundByLater s.day s.n) (cueOf p b)
          else boundEarlier s.day s.n (cueOf p b) d) := by
  have won : conflictTest (cueOf p b) ((s.without p b).setMap (insertCue s.day s.n (cueOf p b) (s.without p b).map)) =
      cuesGone .conflict ((s.without p b).map.filter fun d => conflicts s.day d (cueOf p b))
        ((s.without p b).setMap ((s.without p b).standing (cueOf p b))) :=
    conflictTest_wins (s := s.without p b) without_other unbeaten
  rw [mapCue_free free, won]
  generalize ((s.without p b).map.filter fun d => conflicts s.day d (cueOf p b)) = l
  have map : (cuesGone .conflict l ((s.without p b).setMap ((s.without p b).standing (cueOf p b)))).map =
      (s.without p b).standing (cueOf p b) := by simp
  have day : (cuesGone .conflict l ((s.without p b).setMap ((s.without p b).standing (cueOf p b)))).day = s.day :=
    State.day_congr (by simp [State.without])
  have frame : (cuesGone .conflict l ((s.without p b).setMap ((s.without p b).standing (cueOf p b)))).n = s.n := by
    simp [State.n, State.without]
  have member : ∀ d ∈ (s.without p b).standing (cueOf p b), d.same (cueOf p b) = true → d = cueOf p b := fun d mem same =>
    ((mem_standing without_other).mp mem).resolve_right fun ⟨old, _⟩ =>
      Bool.false_ne_true ((without_other d old).symm.trans same)
  rw [boundNeighbours_present (by rw [map]; exact (mem_standing without_other).mpr (.inl rfl)) (by rwa [map]), map, day, frame]

end

end Sys2Proof.Machine
end

section
/-! Settles O49 from the lemmas on a cue entered. -/

namespace Sys2Proof.Machine

section
variable {p : Nat} {b : CueBody} {s : State}

theorem without_map (p : Nat) (b : CueBody) (s : State) :
    (s.without p b).map = s.map.filter fun d => decide (¬ (d.owner = p ∧ d.seq = b.seq)) := withoutCue_eq _ _ _

/-- The cue entered, with the bound that later neighbours on its rows leave it. -/
def State.entered (p : Nat) (b : CueBody) (s : State) : Cue :=
  ((s.without p b).standing (cueOf p b)).foldl (boundByLater s.day s.n) (cueOf p b)

theorem entered_rebound (p : Nat) (b : CueBody) (s : State) : (cueOf p b).Rebound (s.entered p b) :=
  foldl_boundByLater_rebound _ _ _ _

/-- The bound that a cue entered ends with: its linger-off, or what the one later neighbour on its rows sets. -/
theorem enteredBound_none (none : ∀ d ∈ (s.without p b).map, d.low < b.low + b.count ∧ b.low < d.low + d.count →
      s.dist b.showAt d.showAt ≤ 0) :
    s.entered p b = cueOf p b := by
  refine foldl_boundByLater_noLater fun d mem => ?_
  rcases (mem_standing without_other).mp mem with rfl | ⟨old, -⟩
  · exact .inl (Cue.same_self _)
  · by_cases shares : d.shares (cueOf p b) = true
    · exact .inr (.inr fun later =>
        absurd ((s.isAfter_iff _ _).mp later) (not_lt.mpr (none d old (Cue.shares_iff.mp shares))))
    · exact .inr (.inl shares)

theorem standing_nodup (distinct : (s.without p b).map.Nodup) : ((s.without p b).standing (cueOf p b)).Nodup := by
  refine List.Nodup.filter _ ((insertCue_perm _ _ _ _).nodup_iff.mpr (List.nodup_cons.mpr ⟨fun mem => ?_, distinct⟩))
  exact Bool.false_ne_true ((without_other _ mem).symm.trans (Cue.same_self _))

theorem enteredBound_one {m : Cue} (mem : m ∈ (s.without p b).map) (distinct : (s.without p b).map.Nodup)
    (apart : conflicts s.day m (cueOf p b) = false)
    (none : ∀ d ∈ (s.without p b).map, d ≠ m → d.low < b.low + b.count ∧ b.low < d.low + d.count →
      conflicts s.day d (cueOf p b) = false → s.dist b.showAt d.showAt ≤ 0) :
    s.entered p b =
      boundByLater s.day s.n (cueOf p b) m := by
  refine foldl_boundByLater_one (standing_nodup distinct) ((mem_standing without_other).mpr (.inr ⟨mem, apart⟩))
    fun d listed other => ?_
  rcases (mem_standing without_other).mp listed with rfl | ⟨old, free⟩
  · exact .inl (Cue.same_self _)
  · by_cases shares : d.shares (cueOf p b) = true
    · exact .inr (.inr fun later =>
        absurd ((s.isAfter_iff _ _).mp later) (not_lt.mpr (none d old other (Cue.shares_iff.mp shares) free)))
    · exact .inr (.inl shares)

/-- The map after the entry of a cue that none beats: the entries that stand, with their bounds. -/
def State.bounded (p : Nat) (b : CueBody) (s : State) : List Cue :=
  ((s.without p b).standing (cueOf p b)).map fun d =>
    if d.same (cueOf p b) then s.entered p b
    else boundEarlier s.day s.n (cueOf p b) d

/-- Its notices are those of the cues it conflicts with, in the order of the map. -/
theorem mapCue_notices
    (won : mapCue p b s = (cuesGone .conflict ((s.without p b).map.filter fun d => conflicts s.day d (cueOf p b))
      ((s.without p b).setMap ((s.without p b).standing (cueOf p b)))).setMap (s.bounded p b)) :
    mapCue p b s = { ((s.without p b).map.filter fun d => conflicts s.day d (cueOf p b)).foldl
        (fun u d => if d.owner = s.own then conflictLoss d.seq u else u)
          { s with map := (s.without p b).standing (cueOf p b) } with
      map := (mapCue p b s).map } := by
  rw [cuesGone_conflict (own := s.own) (s := (s.without p b).setMap ((s.without p b).standing (cueOf p b))) _ rfl] at won
  conv_lhs => rw [won]
  rw [congrArg State.map won]
  rfl

/-- The cue itself, with the bound it ends with. -/
theorem mem_bounded_self : s.entered p b ∈
    s.bounded p b :=
  List.mem_map.mpr ⟨cueOf p b, (mem_standing without_other).mpr (.inl rfl), if_pos (Cue.same_self _)⟩

theorem bounded_other {d : Cue} (known : d ∈ (s.without p b).map) :
    (if d.same (cueOf p b) then s.entered p b
      else boundEarlier s.day s.n (cueOf p b) d) = boundEarlier s.day s.n (cueOf p b) d :=
  if_neg (by rw [without_other d known]; exact Bool.false_ne_true)

/-- Every other entry is one that stood and conflicts with the cue entered not, its bound as R95 sets it. -/
theorem bounded_others {e : Cue} (mem : e ∈ s.bounded p b) (other : ¬ (e.owner = p ∧ e.seq = b.seq)) :
    ∃ d ∈ (s.without p b).map, conflicts s.day d (cueOf p b) = false ∧ e = boundEarlier s.day s.n (cueOf p b) d := by
  obtain ⟨d, stands, rfl⟩ := List.mem_map.mp mem
  rcases (mem_standing without_other).mp stands with rfl | ⟨known, apart⟩
  · have bound := entered_rebound p b s
    rw [if_pos (Cue.same_self _), bound] at other
    exact absurd ⟨rfl, rfl⟩ other
  · exact ⟨d, known, apart, bounded_other known⟩

theorem mem_bounded_other {d : Cue} (known : d ∈ (s.without p b).map) (apart : conflicts s.day d (cueOf p b) = false) :
    boundEarlier s.day s.n (cueOf p b) d ∈ s.bounded p b :=
  List.mem_map.mpr ⟨d, (mem_standing without_other).mpr (.inr ⟨known, apart⟩), bounded_other known⟩

end

theorem makeEntries_room (inHand : Cue → Bool) (c : Cue) (s : State) : makeEntries inHand c s =
    { roomMade inHand c s with map := insertCue s.day s.n c (roomMade inHand c s).map } := by
  have frame : (roomMade inHand c s).straps = s.straps ∧ (roomMade inHand c s).ref = s.ref := by
    unfold roomMade
    split <;> simp
  rw [makeEntries_eq, State.day_congr frame.1, State.n, frame.2]
  rfl

/-- Settles O49: the row's eviction, the entry, its conflict test and displacement, and the claim of a cue that loses. -/
theorem cueEntersMap : Obligations.CueEntersMap := by
  refine ⟨fun inHand row s => ?_, makeEntries_room, fun p b s _ free => ?_, fun seq s => ⟨fun none => ?_, ?_⟩⟩
  · dsimp only
    rw [← rowEntries_eq]
    refine ⟨makeRowRoom_free inHand, fun full candidate => ?_⟩
    obtain ⟨v, on, other, first, eq⟩ := makeRowRoom_evicts full candidate
    refine ⟨v, on, other, fun d mem out => evictBefore_iff.not.mp (first d mem out), ?_⟩
    rw [eq, withoutCue_eq]
    rfl
  · intro c others edge shares clash wins
    have cue : c = cueOf p b := rfl
    clear_value c
    subst cue
    have map : (s.without p b).map = others := without_map p b s
    have clash_iff : ∀ d, conflicts s.day d (cueOf p b) = true ↔ clash d := fun d => conflicts_iff
    have apart_iff : ∀ d, conflicts s.day d (cueOf p b) = false ↔ ¬ clash d := fun d => by rw [← clash_iff, Bool.not_eq_true]
    have wins_iff : ∀ d, preferred s.day d (cueOf p b) = true ↔ wins d := fun d => preferred_iff
    refine ⟨fun ⟨d, mem, clashes, wins⟩ => ?_, fun unbeaten => ?_⟩
    · rw [mapCue_loses free ⟨d, map ▸ mem, (clash_iff d).mpr clashes, (wins_iff d).mpr wins⟩]
      refine ⟨(cueGone_frame _ _ _).2.2.2.2.1.trans map, ?_⟩
      have same : s.without p b = { s with map := others } := congrArg s.setMap map
      rw [same]
      rfl
    · have won := mapCue_wins free fun d mem clashes preferred =>
        unbeaten d (map ▸ mem) ((clash_iff d).mp clashes) ((wins_iff d).mp preferred)
      have entries : (mapCue p b s).map = s.bounded p b := congrArg State.map won
      have clashers : ((s.without p b).map.filter fun d => conflicts s.day d (cueOf p b)) =
          others.filter fun d => decide (clash d) := by
        rw [map]
        exact List.filter_congr fun d _ => by rw [Bool.eq_iff_iff, clash_iff, decide_eq_true_iff]
      refine ⟨⟨(s.without p b).standing (cueOf p b), ?_⟩, ⟨(s.entered p b).offBound, ?_, fun none => ?_, fun m mem distinct onRow apart later alone => ?_⟩,
        fun e mem other => ?_, fun d old apart => ?_⟩
      · rw [← clashers]
        exact mapCue_notices won
      · rw [← entered_rebound p b s, entries]
        exact mem_bounded_self
      · rw [enteredBound_none (map ▸ none)]
        rfl
      · have known : m ∈ (s.without p b).map := map ▸ mem
        rw [enteredBound_one known (map ▸ distinct) ((apart_iff m).mpr apart) fun d old other shared free =>
            alone d (map ▸ old) other shared ((apart_iff d).mp free),
          boundByLater_later (without_other m known) (Cue.shares_iff.mpr onRow) ((s.isAfter_iff _ _).mpr later)]
        simp only [State.isAfter_iff]
        rfl
      · obtain ⟨d, known, apart, rfl⟩ := bounded_others (entries ▸ mem) other
        refine ⟨d, map ▸ known, (apart_iff d).mp apart, fun stays => boundEarlier_stays ?_, fun onRow early beyond =>
          boundEarlier_moves (without_other d known) (Cue.shares_iff.mpr onRow) ((s.isAfter_iff _ _).mpr early)
            ((s.isAfter_iff _ _).mpr beyond)⟩
        rw [Cue.shares_iff, State.isAfter_iff, State.isAfter_iff, not_lt, not_lt]
        exact stays
      · refine ⟨_, ?_, boundEarlier_rebound s.day s.n (cueOf p b) d⟩
        rw [entries]
        exact mem_bounded_other (map ▸ old) ((apart_iff d).mpr apart)
  · exact conflictLoss_none (findEchoed_none none)
  · exact fun before c after claims none ends => conflictLoss_some (findEchoed_first claims none ends)

end Sys2Proof.Machine
end

section
/-! What a peer's STATE does to peers, time, floor and item number (R12, R13, R15, R115, R140, R157), for O50. -/

namespace Sys2Proof.Machine

/-! ### What the end of a cue that lost no conflict leaves as it was -/

/-- The text, the floor and what an end of act leaves of the line and the item unit. -/
structure PlainKeeps (s t : State) : Prop where
  text : t.text = s.text
  floor : t.floor = s.floor
  ends : EndKeeps s t

namespace PlainKeeps

theorem refl (s : State) : PlainKeeps s s := ⟨rfl, rfl, .refl s⟩

theorem trans {s t u : State} (first : PlainKeeps s t) (second : PlainKeeps t u) : PlainKeeps s u :=
  ⟨second.text.trans first.text, second.floor.trans first.floor, first.ends.trans second.ends⟩

/-- An act from a state with the same text, floor, item, line and pacing set. -/
theorem same {r s t : State} (act : PlainKeeps s t) (text : s.text = r.text) (floor : s.floor = r.floor)
    (item : s.item = r.item) (line : s.line = r.line) (pacing : s.pacing = r.pacing) : PlainKeeps r t :=
  .trans ⟨text, floor, .of_units item line pacing⟩ act

theorem removeUnstarted (p : PacketKind → Bool) (s : State) : PlainKeeps s (removeUnstarted p s) where
  text := by simp
  floor := by simp
  ends := .trans (t := s.modLine fun l => { l with
    queue := l.queue.filter fun q => q.started || !p q.kind, waiting := l.waiting.filter fun q => !p q.kind })
    ⟨rfl, rfl, rfl, rfl, rfl, rfl, rfl⟩ (enterWaiting_endKeeps _)

theorem endClaim (seq : Byte) (s : State) : PlainKeeps s (endClaim seq s) := by
  unfold Machine.endClaim
  split
  · have left := (removeUnstarted (PacketKind.isReviseOf seq)
      (s.setClaims (s.claims.eraseP fun c => decide (c.seq = seq) && c.echoed))).same (r := s) rfl rfl rfl rfl rfl
    exact left.trans ⟨by simp, by simp, .of_units (by simp) (by simp) (by simp)⟩
  · exact .refl s

theorem cueGone (c : Cue) (s : State) : PlainKeeps s (cueGone .plain c s) := by
  unfold Machine.cueGone
  split
  · exact endClaim c.seq s
  · exact .refl s

theorem cuesGone (l : List Cue) (s : State) : PlainKeeps s (cuesGone .plain l s) := by
  induction l generalizing s with
  | nil => exact .refl s
  | cons c l ih => exact (cueGone c s).trans (ih _)

theorem pushReports (l : List Report) (s : State) : PlainKeeps s (pushReports l s) :=
  ⟨by simp, by simp, .of_units (by simp) (by simp) (by simp)⟩

theorem showAndExpire (step : Bool) (s : State) : PlainKeeps s (showAndExpire step s) := by
  unfold Machine.showAndExpire
  dsimp only
  refine PlainKeeps.trans (PlainKeeps.trans ?_ (pushReports _ _)) (cuesGone _ _)
  exact (cuesGone _ _).same rfl rfl rfl rfl rfl

theorem flagIf (b : Bool) (f : Sticky) (s : State) : PlainKeeps s (s.flagIf b f) :=
  ⟨by simp, by simp, .of_units (by simp) (by simp) (by simp)⟩

theorem phaseLoad (f : Frame) (s : State) : PlainKeeps s (phaseLoad f s) := by
  unfold Machine.phaseLoad
  dsimp only
  have loaded := (flagIf (farStep (s.dist s.n f)) .timeStep
    (s.modRef fun u => { u with n := f, status := .following })).same (r := s) rfl rfl rfl rfl rfl
  split
  · exact loaded
  · exact loaded.trans (showAndExpire true _)

theorem takeTime (sender : Nat) (b : StateBody) (passed : Nat) (s : State) : PlainKeeps s (takeTime sender b passed s) := by
  unfold Machine.takeTime
  split
  · dsimp only
    split
    · exact (refl _).same rfl rfl rfl rfl rfl
    · exact (phaseLoad _ _).same rfl rfl rfl rfl rfl
  · exact .refl s

end PlainKeeps

/-! ### The sender's entry in the Peer Table (R157) -/

/-- The entry of a peer whose STATE has been taken. -/
def toldPeer (b : StateBody) : Peer := { presence := .present, unheard := 0, floor := some b.floor, status := some b.status }

section
variable {p : Nat} {b : StateBody} {s : State}

theorem announce_hearing (low : 1 ≤ p) (high : p ≤ 16) (peers : s.line.peers.length = 16) :
    announce p b (s.hearing p) =
      { s.hearing p with line := { (s.hearing p).line with peers := s.line.peers.set (p - 1) (toldPeer b) } } := by
  have inside : p - 1 < s.line.peers.length := by omega
  simp [announce, setPeer, State.modLine, State.hearing, List.set_set, List.getD_eq_getElem?_getD, inside, toldPeer]

theorem peerEntry_told {t : State} (low : 1 ≤ p) (high : p ≤ 16) (peers : s.line.peers.length = 16)
    (same : t.line.peers = s.line.peers.set (p - 1) (toldPeer b)) : peerEntry p t = toldPeer b := by
  have inside : p - 1 < s.line.peers.length := by omega
  simp [peerEntry, same, List.getD_eq_getElem?_getD, inside]

theorem peerEntry_other {t : State} {q : Nat} (low : 1 ≤ q) (below : q < p)
    (same : t.line.peers = s.line.peers.set (p - 1) (toldPeer b)) : peerEntry q t = peerEntry q s := by
  have other : p - 1 ≠ q - 1 := by omega
  simp [peerEntry, same, List.getD_eq_getElem?_getD, other]

/-! ### The time source (R12) -/

theorem mem_stationNumbers {q : Nat} : q ∈ stationNumbers ↔ 1 ≤ q ∧ q ≤ 16 := by
  simp only [stationNumbers, List.mem_cons, List.not_mem_nil, or_false]
  omega

theorem isTimeSource_iff {t : State} (high : p ≤ 16) (peer : p ≠ s.own) (straps : t.straps = s.straps)
    (same : t.line.peers = s.line.peers.set (p - 1) (toldPeer b)) :
    isTimeSource p b t = true ↔ b.status = .anchored ∧ ∀ q, 1 ≤ q → q < p → q ≠ s.own →
      (peerEntry q s).presence = .present → (peerEntry q s).status ≠ some .anchored := by
  have own : t.own = s.own := State.own_congr straps
  simp only [isTimeSource, own, Bool.and_eq_true, decide_eq_true_iff, Bool.not_eq_true', List.any_eq_false, mem_stationNumbers,
    not_and]
  constructor
  · rintro ⟨⟨-, anchored⟩, none⟩
    refine ⟨anchored, fun q low below other present => ?_⟩
    rw [← peerEntry_other low below same] at present ⊢
    exact none q ⟨low, by omega⟩ ⟨⟨below, other⟩, present⟩
  · rintro ⟨anchored, none⟩
    refine ⟨⟨peer, anchored⟩, fun q inside ⟨⟨below, other⟩, present⟩ => ?_⟩
    rw [peerEntry_other inside.1 below same] at present ⊢
    exact none q inside.1 below other present

theorem takeTime_other {passed : Nat} (other : isTimeSource p b s = false) : takeTime p b passed s = s :=
  if_neg (by rw [other]; exact Bool.false_ne_true)

theorem takeTime_anchored {passed : Nat} (source : isTimeSource p b s = true) (anchored : s.ref.status = .anchored) :
    takeTime p b passed s = { s with ref := { s.ref with peerSilence := 0, sourceSeen := true } } :=
  (if_pos source).trans (if_pos anchored)

theorem takeTime_loads {passed : Nat} (source : isTimeSource p b s = true) (free : s.ref.status ≠ .anchored) :
    takeTime p b passed s =
      phaseLoad (s.plus b.frame passed) { s with ref := { s.ref with peerSilence := 0, sourceSeen := true } } :=
  (if_pos source).trans (if_neg free)

theorem phaseLoad_eq (f : Frame) (s : State) : phaseLoad f s =
    if s.dist s.n f = 0 then
      if 1 < s.dist s.n f ∨ s.dist s.n f < -1 then
        State.flagged .timeStep { s with ref := { s.ref with n := f, status := .following } }
      else { s with ref := { s.ref with n := f, status := .following } }
    else showAndExpire true (if 1 < s.dist s.n f ∨ s.dist s.n f < -1 then
        State.flagged .timeStep { s with ref := { s.ref with n := f, status := .following } }
      else { s with ref := { s.ref with n := f, status := .following } }) := by
  unfold phaseLoad
  simp only [State.flagIf, farStep, Bool.or_eq_true, decide_eq_true_iff]
  rfl

/-! ### The holder and the item number taken up (R115, R140) -/

theorem holderFromState_takes (none : s.floor.holder = none)
    (on : (peerEntry p s).floor = some .live ∨ (peerEntry p s).floor = some .yielding) :
    (holderFromState p s).floor = { s.floor with
      holder := some p, successor := if s.floor.successor = some p then .none else s.floor.successor, reportDue := true } := by
  unfold holderFromState
  rw [if_pos ⟨none, on⟩]
  by_cases successor : s.floor.successor = some p <;>
    simp [setHolder, setSuccessor, State.modFloor, none, successor]

theorem holderFromState_stands
    (held : ¬ (s.floor.holder = none ∧ ((peerEntry p s).floor = some .live ∨ (peerEntry p s).floor = some .yielding))) :
    holderFromState p s = s := if_neg held

theorem joinItem_number (k : Byte) (s : State) :
    (joinItem k s).item.number = if s.station.mode = .joining then k else s.item.number := by
  unfold joinItem
  split <;> rfl

theorem holderFromState_withFloor (p : Nat) (s : State) : holderFromState p s = { s with floor := (holderFromState p s).floor } := by
  unfold holderFromState
  split
  · dsimp only
    split <;> rfl
  · rfl

theorem joinItem_withItem (k : Byte) (s : State) : joinItem k s = { s with item := (joinItem k s).item } := by
  unfold joinItem
  split <;> rfl

end

end Sys2Proof.Machine
end

section
/-! What the Row Map makes of a STATE (R100): which cues stand after it, for O50 and O45. -/

namespace Sys2Proof.Machine

/-! ### Bounds: every entry is one there was, its off bound apart -/

theorem boundNeighbours_old {c e : Cue} {s : State} (mem : e ∈ (boundNeighbours c s).map) : ∃ d ∈ s.map, d.Rebound e := by
  unfold boundNeighbours at mem
  split at mem
  · next g found =>
    obtain ⟨d, known, rfl⟩ := List.mem_map.mp mem
    split
    · exact ⟨g, (findCue_mem found).1, foldl_boundByLater_rebound _ _ _ _⟩
    · exact ⟨d, known, boundEarlier_rebound _ _ _ _⟩
  · exact ⟨e, mem, .refl e⟩

theorem boundAll_old {l : List Cue} {s : State} {e : Cue} (mem : e ∈ (boundAll l s).map) : ∃ d ∈ s.map, d.Rebound e := by
  induction l generalizing s with
  | nil => exact ⟨e, mem, .refl e⟩
  | cons c l ih =>
    obtain ⟨d, known, rebound⟩ := ih mem
    obtain ⟨g, old, first⟩ := boundNeighbours_old known
    exact ⟨g, old, first.trans rebound⟩

theorem Cue.Rebound.fields {a b : Cue} (rebound : a.Rebound b) : b.owner = a.owner ∧ b.seq = a.seq ∧ b.low = a.low ∧
    b.count = a.count ∧ b.showAt = a.showAt ∧ b.minOff = a.minOff := by
  unfold Cue.Rebound at rebound
  rw [rebound]
  exact ⟨rfl, rfl, rfl, rfl, rfl, rfl⟩

/-- After a STATE a cue is a listed one or was there before from another sender, its off bound apart. -/
theorem mapState_old {p : Nat} {l : List StateClaim} {s : State} {e : Cue} (mem : e ∈ (mapState p l s).map) :
    ∃ d, d.Rebound e ∧ (d ∈ listedCues p l s ∨ (d ∈ s.map ∧ d.owner ≠ p)) := by
  rw [mapState_eq] at mem
  obtain ⟨d, known, rebound⟩ := boundAll_old mem
  refine ⟨d, rebound, (mem_makeAllEntries ((testAll_sublist _ _).subset known)).imp_right fun old => ?_⟩
  simpa using List.mem_filter.mp old

theorem mapState_own {p : Nat} {l : List StateClaim} {s : State} {c : Cue} (mem : c ∈ (mapState p l s).map)
    (own : c.owner = p) : ∃ k ∈ l, c.seq = k.seq ∧ c.low = k.low ∧ c.count = k.count ∧ c.showAt = k.showAt ∧
      c.minOff = k.minOff := by
  obtain ⟨d, rebound, from'⟩ := mapState_old mem
  obtain ⟨owner, seq, low, count, showAt, minOff⟩ := rebound.fields
  rcases from' with listed | ⟨-, other⟩
  · obtain ⟨-, -, k, known, rfl⟩ := mem_listedCues listed
    exact ⟨k, known, seq, low, count, showAt, minOff⟩
  · exact absurd (owner.symm.trans own) other

theorem mapState_others {p : Nat} {l : List StateClaim} {s : State} {c : Cue} (mem : c ∈ (mapState p l s).map)
    (other : c.owner ≠ p) : ∃ d ∈ s.map, c = { d with offBound := c.offBound } := by
  obtain ⟨d, rebound, listed | ⟨old, -⟩⟩ := mapState_old mem
  · exact absurd (rebound.fields.1.trans (mem_listedCues listed).1) other
  · exact ⟨d, old, rebound⟩

theorem filter_not_owner (p : Nat) (l : List Cue) :
    (l.filter fun c => !decide (c.owner = p)) = l.filter fun c => decide (c.owner ≠ p) :=
  List.filter_congr fun c _ => by simp

/-- A STATE that lists none takes the sender's cues away. -/
theorem mapState_nil (p : Nat) (s : State) :
    mapState p [] s = { s with map := s.map.filter fun c => decide (c.owner ≠ p) } := by
  rw [← filter_not_owner]
  rfl

/-- A listed cue that has not ended is entered, with the linger-off and gap held for it. -/
theorem listed_of_after {p : Nat} {l : List StateClaim} {s : State} {k : StateClaim} (known : k ∈ l) :
    let held := findCue p k.seq s
    let linger := (held.map Cue.lingerOff).getD k.offBound
    s.dist (earlierOf s.day k.offBound linger) s.n < 0 →
    { owner := p, seq := k.seq, showAt := k.showAt, minOff := k.minOff, lingerOff := linger,
      offBound := earlierOf s.day k.offBound linger, gap := (held.map Cue.gap).getD 0, low := k.low,
      count := k.count : Cue } ∈ listedCues p l s := by
  intro held linger after
  refine List.mem_filter.mpr ⟨List.mem_map.mpr ⟨k, known, ?_⟩, ?_⟩
  · simp only [listedCue, linger, held]
    cases findCue p k.seq s <;> rfl
  · rw [Bool.not_eq_true', ← Bool.not_eq_true, cueEnded, State.atOrBefore_iff, not_le]
    exact after

/-! ### Entries made where the rows have room for all -/

/-- No two listed cues have one sequence. -/
theorem listed_distinct {p : Nat} {l : List StateClaim} {s : State} (apart : (l.map StateClaim.seq).Nodup) :
    (listedCues p l s).Pairwise fun c d => c.seq ≠ d.seq := by
  refine List.Pairwise.filter _ (List.pairwise_map.mpr ?_)
  exact List.pairwise_map.mp apart

theorem makeAllEntries_free (inHand : Cue → Bool) {l : List Cue} {s : State}
    (distinct : l.Pairwise fun c d => c.same d = false) (new : ∀ c ∈ l, ∀ d ∈ s.map, d.same c = false)
    (counts : ∀ c ∈ l, c.count = 1 ∨ c.count = 2)
    (room : ∀ row, ((s.map ++ l).filter fun d => d.covers row).length ≤ rowCapacity) :
    ∃ m : List Cue, makeAllEntries inHand l s = s.setMap m ∧ m.Perm (s.map ++ l) := by
  induction l generalizing s with
  | nil => exact ⟨s.map, rfl, by simp⟩
  | cons c l ih =>
    obtain ⟨distinctHead, distinctTail⟩ := List.pairwise_cons.mp distinct
    have gone : withoutCue c.owner c.seq s.map = s.map :=
      List.filter_eq_self.mpr fun d mem => by simpa [Cue.same] using new c (.head _) d mem
    have free : ∀ row, c.covers row = true → (rowEntries s row).length < rowCapacity := fun row covers => by
      have := room row
      simp only [List.filter_append, List.filter_cons, covers, if_true, List.length_append, List.length_cons] at this
      unfold rowEntries
      omega
    have count := counts c (.head _)
    have made : makeEntries inHand c (s.setMap (withoutCue c.owner c.seq s.map)) =
        s.setMap (insertCue s.day s.n c s.map) := by
      rw [gone]
      exact makeEntries_free (s := s) inHand (free _ (Cue.covers_iff.mpr (by omega)))
        fun two => free _ (Cue.covers_iff.mpr (by omega))
    have perm : (insertCue s.day s.n c s.map).Perm (c :: s.map) := insertCue_perm _ _ _ _
    have whole : (insertCue s.day s.n c s.map ++ l).Perm (s.map ++ c :: l) :=
      (perm.append_right l).trans List.perm_middle.symm
    obtain ⟨m, eq, entered⟩ := ih (s := s.setMap (insertCue s.day s.n c s.map)) distinctTail (fun e mem d known => by
        rcases List.mem_cons.mp (perm.mem_iff.mp known) with rfl | old
        · exact distinctHead e mem
        · exact new e (.tail _ mem) d old) (fun e mem => counts e (.tail _ mem)) fun row =>
          (whole.filter fun d => d.covers row).length_eq.le.trans (room row)
    exact ⟨m, (congrArg (makeAllEntries inHand l) made).trans eq, entered.trans whole⟩

/-! ### A cue that no test takes away -/

theorem frameDist_swap {day : Nat} (pos : 0 < day) {a b : Nat} (after : 0 ≤ frameDist day a b) :
    frameDist day b a = - frameDist day a b := by
  obtain ⟨whole, low, high⟩ := frameDist_spec pos a b
  refine frameDist_unique pos ?_ (by omega) (by omega)
  have := dvd_neg.mpr whole
  ring_nf at this ⊢
  exact this

/-- Of two cues of different preference, the one preferred is not beaten by the other. -/
theorem preferred_asymm {s : State} {c d : Cue} (wins : preferred s.day c d = true) : ¬ preferred s.day d c = true := by
  rw [preferred_iff] at wins ⊢
  have swap : s.dist d.showAt c.showAt = - s.dist c.showAt d.showAt := frameDist_swap s.day_pos (by
    have : 0 ≤ s.dist c.showAt d.showAt := by omega
    exact this)
  omega

/-- The test of `e` leaves `c`: another cue preferred where they conflict, or `e` itself that none in the map beats. -/
def Cue.Safe (day : Nat) (m : List Cue) (c e : Cue) : Prop :=
  (c.same e = false ∧ (conflicts day c e = true → preferred day c e = true)) ∨
    (c = e ∧ ∀ d ∈ m, d.same c = false → conflicts day d c = true → ¬ preferred day d c = true)

theorem Cue.Safe.sublist {day : Nat} {l m : List Cue} {c e : Cue} (safe : c.Safe day m e) (sub : l.Sublist m) : c.Safe day l e :=
  safe.imp_right fun ⟨self, unbeaten⟩ => ⟨self, fun d mem => unbeaten d (sub.subset mem)⟩

theorem conflictTest_survives {c e : Cue} {s : State} (mem : c ∈ s.map) (safe : c.Safe s.day s.map e) :
    c ∈ (conflictTest e s).map := by
  rw [conflictTest_map]
  split
  · next beaten =>
    obtain ⟨d, against, wins⟩ := List.any_eq_true.mp beaten
    simp only [List.mem_filter, Bool.and_eq_true, Bool.not_eq_true'] at against
    obtain ⟨known, other, clash⟩ := against
    rcases safe with ⟨apart, -⟩ | ⟨rfl, unbeaten⟩
    · exact mem_withoutCue.mpr ⟨mem, apart⟩
    · exact absurd wins (unbeaten d known other clash)
  · next unbeaten =>
    refine List.mem_filter.mpr ⟨mem, ?_⟩
    rcases safe with ⟨apart, wins⟩ | ⟨rfl, -⟩
    · rw [apart, Bool.false_or, Bool.not_eq_true', ← Bool.not_eq_true]
      intro clash
      refine unbeaten (List.any_eq_true.mpr ⟨c, List.mem_filter.mpr ⟨mem, ?_⟩, wins clash⟩)
      rw [apart, clash]
      rfl
    · rw [Cue.same_self, Bool.true_or]

theorem testAll_survives {l : List Cue} {s : State} {c : Cue} (mem : c ∈ s.map)
    (one : ∀ e ∈ l, ∀ d ∈ s.map, d.same e = true → d = e) (safe : ∀ e ∈ l, c.Safe s.day s.map e) :
    c ∈ (testAll l s).map := by
  induction l generalizing s with
  | nil => exact mem
  | cons e l ih =>
    unfold testAll
    split
    · next d found =>
      obtain ⟨known, own⟩ := findCue_mem found
      obtain rfl : d = e := one e (.head _) d known (Cue.same_iff.mpr own)
      have sub := conflictTest_sublist d s
      refine ih (conflictTest_survives mem (safe d (.head _))) (fun g later h old => one g (.tail _ later) h (sub.subset old))
        fun g later => ?_
      rw [conflictTest_day]
      exact (safe g (.tail _ later)).sublist sub
    · exact ih mem (fun g later => one g (.tail _ later)) fun g later => safe g (.tail _ later)

theorem Cue.Rebound.same_left {a b : Cue} (rebound : a.Rebound b) (c : Cue) : b.same c = a.same c :=
  rebound.same (.refl c)

/-- Setting bounds keeps a cue, where the cue whose bounds are set is another or all of its identity are it. -/
theorem boundNeighbours_holds {c g : Cue} {s : State} (holds : ∃ e ∈ s.map, c.Rebound e)
    (one : c.same g = true → ∀ d ∈ s.map, d.same c = true → c.Rebound d) : ∃ e ∈ (boundNeighbours g s).map, c.Rebound e := by
  obtain ⟨e, mem, rebound⟩ := holds
  unfold boundNeighbours
  split
  · next g' found =>
    obtain ⟨known, own⟩ := findCue_mem found
    refine ⟨_, List.mem_map_of_mem mem, ?_⟩
    split
    · next same =>
      rw [rebound.same_left] at same
      obtain ⟨owner, seq⟩ := Cue.same_iff.mp same
      have self : g'.same c = true := by rwa [Cue.same_comm]
      have listed : c.same g = true := Cue.same_iff.mpr ⟨owner.trans own.1, seq.trans own.2⟩
      exact (one listed g' known self).trans (foldl_boundByLater_rebound _ _ _ _)
    · exact rebound.trans (boundEarlier_rebound _ _ _ _)
  · exact ⟨e, mem, rebound⟩

theorem boundAll_holds {c : Cue} {l : List Cue} {s : State} (holds : ∃ e ∈ s.map, c.Rebound e)
    (one : ∀ g ∈ l, c.same g = true → ∀ d ∈ s.map, d.same c = true → c.Rebound d) :
    ∃ e ∈ (boundAll l s).map, c.Rebound e := by
  induction l generalizing s with
  | nil => exact holds
  | cons g l ih =>
    refine ih (boundNeighbours_holds holds (one g (.head _))) fun h later same d known own => ?_
    obtain ⟨old, mem, rebound⟩ := boundNeighbours_old known
    exact (one h (.tail _ later) same old mem (by rwa [rebound.same_left] at own)).trans rebound

/-! ### The cues that stand after a STATE whose rows have room -/

section
variable {p : Nat} {l : List StateClaim} {s : State}

theorem mem_filter_not_owner {d : Cue} : (d ∈ s.map.filter fun c => !decide (c.owner = p)) ↔ d ∈ s.map ∧ d.owner ≠ p := by
  simp

/-- A cue of the entered map that is safe from every listed cue stands. -/
theorem mapState_stands (apart : (l.map StateClaim.seq).Nodup) (counts : ∀ k ∈ l, k.count = 1 ∨ k.count = 2)
    (room : ∀ row, (((s.map.filter fun c => !decide (c.owner = p)) ++ listedCues p l s).filter fun d => d.covers row).length ≤
      rowCapacity)
    {c : Cue} (known : c ∈ (s.map.filter fun c => !decide (c.owner = p)) ++ listedCues p l s)
    (safe : ∀ e ∈ listedCues p l s,
      c.Safe s.day ((s.map.filter fun c => !decide (c.owner = p)) ++ listedCues p l s) e) :
    ∃ x, { c with offBound := x } ∈ (mapState p l s).map := by
  have owners : ∀ e ∈ listedCues p l s, e.owner = p := fun e mem => (mem_listedCues mem).1
  have listed : (listedCues p l s).Pairwise fun c d => c.same d = false :=
    (listed_distinct apart).imp fun other => by simp [Cue.same, Cue.isOf, other]
  have one : ∀ e ∈ listedCues p l s, ∀ d ∈ (s.map.filter fun c => !decide (c.owner = p)) ++ listedCues p l s,
      d.same e = true → d = e := fun e mem d from' same => by
    rcases List.mem_append.mp from' with old | new
    · exact absurd ((Cue.same_iff.mp same).1.trans (owners e mem)) (mem_filter_not_owner.mp old).2
    · exact eq_of_same listed new mem same
  have counted : ∀ e ∈ listedCues p l s, e.count = 1 ∨ e.count = 2 := fun e mem => by
    obtain ⟨-, -, k, known, rfl⟩ := mem_listedCues mem
    exact counts k known
  have fresh : ∀ e ∈ listedCues p l s, ∀ d ∈ s.map.filter fun c => !decide (c.owner = p), d.same e = false :=
    fun e mem d old => by
      rw [← Bool.not_eq_true]
      exact fun same => (mem_filter_not_owner.mp old).2 ((Cue.same_iff.mp same).1.trans (owners e mem))
  obtain ⟨m, entered, perm⟩ := makeAllEntries_free (fun d => (listedCues p l s).any fun c => d.same c)
    (s := s.setMap (s.map.filter fun c => !decide (c.owner = p))) listed fresh counted room
  have tested := testAll_survives (s := s.setMap m) (perm.mem_iff.mpr known)
    (fun e mem d old => one e mem d (perm.mem_iff.mp old)) fun e mem => (safe e mem).imp_right fun ⟨self, unbeaten⟩ =>
      ⟨self, fun d old => unbeaten d (perm.mem_iff.mp old)⟩
  rw [mapState_eq, entered]
  obtain ⟨e, mem, rebound⟩ := boundAll_holds (l := listedCues p l s) ⟨c, tested, .refl c⟩ fun g from' same d old own => by
    have old' := perm.mem_iff.mp ((testAll_sublist _ _).subset old)
    obtain rfl := one g from' c known same
    rw [one c from' d old' own]
    exact .refl c
  exact ⟨e.offBound, rebound ▸ mem⟩

end

theorem phaseLoad_ref (f : Frame) (s : State) : (phaseLoad f s).ref = { s.ref with n := f, status := .following } := by
  rw [phaseLoad_eq]
  split_ifs <;> simp [State.flagged]

/-! ### The envelope of a STATE, up to the map -/

/-- What a STATE makes of the station before the Row Map takes it. -/
def stateTaken (p : Nat) (b : StateBody) (passed : Nat) (s : State) : State :=
  joinItem b.item (holderFromState p (takeTime p b passed (announce p b s)))

section
variable (p : Nat) (b : StateBody) (passed : Nat) (s : State)

theorem stateTaken_units : (stateTaken p b passed s).ref = (takeTime p b passed (announce p b s)).ref ∧
    (stateTaken p b passed s).map = (takeTime p b passed (announce p b s)).map ∧
    (stateTaken p b passed s).claims = (takeTime p b passed (announce p b s)).claims ∧
    (stateTaken p b passed s).report = (takeTime p b passed (announce p b s)).report ∧
    (stateTaken p b passed s).line = (takeTime p b passed (announce p b s)).line ∧
    (stateTaken p b passed s).text = (takeTime p b passed (announce p b s)).text := by
  simp [stateTaken]

theorem stateTaken_floor :
    (stateTaken p b passed s).floor = (holderFromState p (takeTime p b passed (announce p b s))).floor := by
  simp [stateTaken]

theorem stateTaken_withView : stateTaken p b passed s = { takeTime p b passed (announce p b s) with
    floor := (stateTaken p b passed s).floor, item := (stateTaken p b passed s).item } := by
  rw [stateTaken_floor]
  exact (joinItem_withItem b.item _).trans
    (congrArg (fun v : State => { v with item := (stateTaken p b passed s).item }) (holderFromState_withFloor p _))

theorem stateTaken_number :
    (stateTaken p b passed s).item.number = if s.station.mode = .joining then b.item else s.item.number := by
  have kept := (PlainKeeps.takeTime p b passed (announce p b s)).ends.number
  rw [stateTaken, joinItem_number]
  simp [kept]

theorem stateTaken_text : (stateTaken p b passed s).text = s.text := by
  have kept := (PlainKeeps.takeTime p b passed (announce p b s)).text
  simp [stateTaken, kept]

theorem stateTaken_peers : (stateTaken p b passed s).line.peers = (announce p b s).line.peers := by
  have kept := (PlainKeeps.takeTime p b passed (announce p b s)).ends.peers
  simp [stateTaken, kept]

end

/-- The view a STATE leaves: a sender on the floor is the holder of a view that has none. -/
theorem stateTaken_view {p : Nat} {b : StateBody} {passed : Nat} {s : State}
    (told : (peerEntry p (announce p b s)).floor = some b.floor) :
    (s.floor.holder = none → (b.floor = .live ∨ b.floor = .yielding) →
      (stateTaken p b passed s).floor = { s.floor with
        holder := some p, successor := if s.floor.successor = some p then none else s.floor.successor, reportDue := true }) ∧
    (s.floor.holder ≠ none ∨ b.floor = .idle ∨ b.floor = .bidding → (stateTaken p b passed s).floor = s.floor) := by
  have kept := PlainKeeps.takeTime p b passed (announce p b s)
  have floor : (takeTime p b passed (announce p b s)).floor = s.floor := by simp [kept.floor]
  have entry : (peerEntry p (takeTime p b passed (announce p b s))).floor = some b.floor := by
    rw [← told]
    simp only [peerEntry, kept.ends.peers]
  rw [stateTaken_floor]
  refine ⟨fun none on => ?_, fun stands => ?_⟩
  · rw [holderFromState_takes (by rw [floor, none]) (by simpa [entry] using on), floor]
  · rw [holderFromState_stands, floor]
    rw [floor, entry]
    rintro ⟨none, on⟩
    rcases stands with held | idle | bidding
    · exact held none
    · simp [idle] at on
    · simp [bidding] at on

/-- Settles O50: the envelope up to the map by what each unit takes of a STATE; the map by what stands through its entries,
tests and bounds. -/
theorem stateIsTaken : Obligations.StateIsTaken := by
  refine ⟨fun p b s delivered peers => ?_, fun p l s => ⟨fun c => mapState_own, ?_, fun c => mapState_others, ?_⟩⟩
  · intro source
    obtain ⟨low, high⟩ := packetValid_sender delivered.1
    have line := announce_hearing (b := b) low high peers
    have act : exec (.statePacket p b) s = .next (finish (takeState p b (s.line.receiving.getD 0) (s.hearing p))) :=
      congrArg (fun v => Host.Outcome.next (finish v)) (hear_delivered delivered)
    generalize s.line.receiving.getD 0 = passed at act ⊢
    have isSource : isTimeSource p b (announce p b (s.hearing p)) = true ↔ source :=
      isTimeSource_iff high delivered.2.1 (by simp) (by rw [line])
    have taken := stateTaken_units p b passed (s.hearing p)
    have peer : peerEntry p (announce p b (s.hearing p)) = toldPeer b := peerEntry_told low high peers (by rw [line])
    have view := stateTaken_view (passed := passed) (s := s.hearing p) (b := b) (p := p) (by rw [peer]; rfl)
    refine ⟨stateTaken p b passed (s.hearing p), ?_, ?_, fun other => ?_, fun is anchored => ?_, fun is free => ?_,
      fun still => ?_, fun is free => ?_, view.1, view.2, ?_, ?_⟩
    · exact act
    · exact peerEntry_told low high peers (by rw [stateTaken_peers, line])
    · rw [taken.1, takeTime_other (Bool.eq_false_of_not_eq_true (mt isSource.mp other))]
      simp
    · rw [taken.1, takeTime_anchored (isSource.mpr is) (by simpa using anchored)]
      simp
    · rw [taken.1, takeTime_loads (isSource.mpr is) (by simpa using free), phaseLoad_ref]
      simp only [announce_frame, hearing_frame]
      rfl
    · obtain ⟨-, map, claims, report, -, -⟩ := taken
      rw [map, claims, report]
      by_cases is : source
      · rw [takeTime_anchored (isSource.mpr is) (by simpa using still.resolve_left (not_not_intro is))]
        simp
      · rw [takeTime_other (Bool.eq_false_of_not_eq_true (mt isSource.mp is))]
        simp
    · have loads := takeTime_loads (passed := passed) (isSource.mpr is) (by simpa using free)
      have whole := stateTaken_withView p b passed (s.hearing p)
      rw [loads, phaseLoad_eq, line] at whole
      exact whole
    · rw [stateTaken_number]
      simp
    · rw [stateTaken_text]
      simp
  · rintro rfl
    exact mapState_nil p s
  · rw [← filter_not_owner]
    intro others listed shares clash wins
    have clash_iff : ∀ a d, conflicts s.day d a = true ↔ clash a d := fun a d => conflicts_iff
    have wins_iff : ∀ a d, preferred s.day a d = true ↔ wins a d := fun a d => preferred_iff
    refine ⟨fun k known => listed_of_after known, fun apart counts room => ?_⟩
    have rows : ∀ row, ((others ++ listed).filter fun d => d.covers row).length ≤ rowCapacity := fun row => by
      have covers : ((others ++ listed).filter fun d => d.covers row) =
          (others ++ listed).filter fun d => decide (d.low ≤ row ∧ row < d.low + d.count) :=
        List.filter_congr fun d _ => by rw [Bool.eq_iff_iff, Cue.covers_iff, decide_eq_true_iff]
      rw [covers]
      exact room row
    refine ⟨fun c mem unbeaten => ?_, fun d mem free => ?_⟩
    · have beats : ∀ d ∈ others ++ listed, d.same c = false → conflicts s.day d c = true → preferred s.day c d = true :=
        fun d known other clashes => (wins_iff c d).mpr (unbeaten d known
          (not_and_or.mp fun ⟨owner, seq⟩ => Bool.false_ne_true
            (other.symm.trans (Cue.same_iff.mpr ⟨owner.trans (mem_listedCues mem).1.symm, seq⟩)))
          ((clash_iff c d).mp clashes))
      refine mapState_stands apart counts rows (List.mem_append_right _ mem) fun e listed' => ?_
      by_cases self : c.same e = true
      · refine .inr ⟨eq_of_same ((listed_distinct apart).imp fun other => by simp [Cue.same, Cue.isOf, other]) mem listed' self,
          fun d known other clashes => preferred_asymm (beats d known other clashes)⟩
      · have other := Bool.eq_false_of_not_eq_true self
        refine .inl ⟨other, fun clashes => beats e (List.mem_append_right _ listed') (Cue.same_comm e c ▸ other) ?_⟩
        rwa [conflicts_comm]
    · refine mapState_stands apart counts rows (List.mem_append_left _ mem) fun e listed' => .inl ⟨?_, fun clashes =>
        absurd ((clash_iff e d).mp clashes) (free e listed')⟩
      rw [← Bool.not_eq_true]
      exact fun same => (mem_filter_not_owner.mp mem).2 ((Cue.same_iff.mp same).1.trans (mem_listedCues listed').1)

end Sys2Proof.Machine
end

section
/-! What the notices of the Row Map leave: the item number always (R136), and the text and the floor where every CUT they queue
finds a place (R155). For O45. -/

namespace Sys2Proof.Machine

/-! ### The item number -/

@[simp] theorem enterWaiting_number (s : State) :
    (enterWaiting s).item.number = s.item.number := (enterWaiting_endKeeps s).number

@[simp] theorem removeUnstarted_number (p : PacketKind → Bool) (s : State) :
    (removeUnstarted p s).item.number = s.item.number := (PlainKeeps.removeUnstarted p s).ends.number

@[simp] theorem removePlanned_number (p : Claim → Bool) (s : State) :
    (removePlanned p s).item.number = s.item.number := by
  simp [removePlanned]

@[simp] theorem handBack_number (p : Claim → Bool) (s : State) :
    (handBack p s).item.number = s.item.number := by
  simp [handBack]

@[simp] theorem reviseGivenUp_number (seq : Byte) (s : State) :
    (reviseGivenUp seq s).item.number = s.item.number := by
  unfold reviseGivenUp
  (repeat' split) <;> simp

@[simp] theorem cutGivenUp_number (seq : Byte) (s : State) :
    (cutGivenUp seq s).item.number = s.item.number := by
  unfold cutGivenUp
  dsimp only
  (repeat' split) <;> simp

@[simp] theorem loseBid_number (s : State) :
    (loseBid s).item.number = s.item.number := by
  simp [loseBid, setFloor, endBid]

@[simp] theorem queueYield_number (s : State) :
    (queueYield s).item.number = s.item.number := (queueYield_endKeeps s).number

@[simp] theorem ownerGivesUp_number (k : PacketKind) (s : State) :
    (ownerGivesUp k s).item.number = s.item.number := by
  unfold ownerGivesUp
  (repeat' split) <;> simp

@[simp] theorem displaceAt_number (i : Nat) (s : State) :
    (displaceAt i s).item.number = s.item.number := by
  unfold displaceAt
  split <;> simp [giveUp, removeAt]

@[simp] theorem makeCutRoom_number (s : State) :
    (makeCutRoom s).item.number = s.item.number := by
  unfold makeCutRoom
  (repeat' split) <;> simp [removeAt]

@[simp] theorem queueCut_number (seq : Byte) (off : Frame) (mark : ResetMark) (s : State) :
    (queueCut seq off mark s).item.number = s.item.number := by
  unfold queueCut
  dsimp only
  (repeat' split) <;> simp

@[simp] theorem endClaim_number (seq : Byte) (s : State) :
    (endClaim seq s).item.number = s.item.number := (PlainKeeps.endClaim seq s).ends.number

@[simp] theorem conflictLoss_number (seq : Byte) (s : State) :
    (conflictLoss seq s).item.number = s.item.number := by
  unfold conflictLoss
  dsimp only
  (repeat' split) <;> simp

@[simp] theorem cueGone_number (why : MapEnd) (c : Cue) (s : State) :
    (cueGone why c s).item.number = s.item.number := by
  unfold cueGone
  (repeat' split) <;> simp

@[simp] theorem cuesGone_number (why : MapEnd) (l : List Cue) (s : State) :
    (cuesGone why l s).item.number = s.item.number := by
  induction l generalizing s with
  | nil => rfl
  | cons c l ih => simp [cuesGone, ih]

@[simp] theorem makeRowRoom_number (inHand : Cue → Bool) (row : Nat) (s : State) :
    (makeRowRoom inHand row s).item.number = s.item.number := by
  unfold makeRowRoom
  (repeat' split) <;> simp

@[simp] theorem makeEntries_number (inHand : Cue → Bool) (c : Cue) (s : State) :
    (makeEntries inHand c s).item.number = s.item.number := by
  unfold makeEntries
  dsimp only
  (repeat' split) <;> simp

@[simp] theorem conflictTest_number (c : Cue) (s : State) :
    (conflictTest c s).item.number = s.item.number := by
  unfold conflictTest
  dsimp only
  (repeat' split) <;> simp

@[simp] theorem makeAllEntries_number (inHand : Cue → Bool) (l : List Cue) (s : State) :
    (makeAllEntries inHand l s).item.number = s.item.number := by
  induction l generalizing s with
  | nil => rfl
  | cons c l ih => simp [makeAllEntries, ih]

@[simp] theorem testAll_number (l : List Cue) (s : State) :
    (testAll l s).item.number = s.item.number := by
  induction l generalizing s with
  | nil => rfl
  | cons c l ih =>
    unfold testAll
    split <;> simp [ih]

@[simp] theorem mapState_number (sender : Nat) (l : List StateClaim) (s : State) :
    (mapState sender l s).item.number = s.item.number := by
  simp [mapState]

@[simp] theorem expireCues_number (s : State) :
    (expireCues s).item.number = s.item.number := by
  simp [expireCues]

@[simp] theorem endUnlisted_number (l : List Cue) (s : State) :
    (endUnlisted l s).item.number = s.item.number := by
  induction l generalizing s with
  | nil => rfl
  | cons c l ih =>
    unfold endUnlisted
    split <;> simp [ih]

/-! ### Notices whose CUTs all find a place -/

/-- The station's own cues in the map. -/
def State.ownCues (s : State) : Nat := (s.map.filter fun c => decide (c.owner = s.own)).length

/-- The packets there are and the CUTs the map's conflicts can still make. -/
def State.weight (s : State) : Nat := s.packets.length + s.ownCues

/-- An act that leaves the text and the floor, and adds at most `k` to the packets and own cues. -/
structure Calm (k : Nat) (s t : State) : Prop where
  straps : t.straps = s.straps
  text : t.text = s.text
  floor : t.floor = s.floor
  weight : t.weight ≤ s.weight + k

namespace Calm

theorem refl (s : State) : Calm 0 s s := ⟨rfl, rfl, rfl, Nat.le_refl _⟩

theorem trans {i j : Nat} {s t u : State} (first : Calm i s t) (second : Calm j t u) : Calm (i + j) s u where
  straps := second.straps.trans first.straps
  text := second.text.trans first.text
  floor := second.floor.trans first.floor
  weight := by have := first.weight; have := second.weight; omega

theorem quiet {s t u : State} (first : Calm 0 s t) (second : Calm 0 t u) : Calm 0 s u := first.trans second

end Calm

theorem ownCues_sublist {s t : State} (straps : t.straps = s.straps) (sub : t.map.Sublist s.map) : t.ownCues ≤ s.ownCues := by
  rw [State.ownCues, State.ownCues, State.own_congr straps]
  exact (sub.filter _).length_le

theorem packets_length_endClaim (seq : Byte) (s : State) : (endClaim seq s).packets.length ≤ s.packets.length := by
  unfold endClaim
  split
  · rw [State.packets_congr (pushReport_frame _ _).2.2.2.2.2.2.2.2.2.2.2.1]
    exact packets_length_removeUnstarted _ _
  · exact Nat.le_refl _

theorem packets_length_cueGone_plain (c : Cue) (s : State) : (cueGone .plain c s).packets.length ≤ s.packets.length := by
  unfold cueGone
  split
  · exact packets_length_endClaim _ _
  · exact Nat.le_refl _

theorem calm_cueGone_plain (c : Cue) (s : State) : Calm 0 s (cueGone .plain c s) where
  straps := by simp
  text := (PlainKeeps.cueGone c s).text
  floor := (PlainKeeps.cueGone c s).floor
  weight := (Nat.add_le_add (packets_length_cueGone_plain c s)
    (ownCues_sublist (s := s) (by simp) (by simp))).trans (Nat.le_add_right _ _)

/-- Fewer cues in the map, nothing else done. -/
theorem calm_setMap {m : List Cue} {s : State} (sub : m.Sublist s.map) : Calm 0 s (s.setMap m) where
  straps := rfl
  text := rfl
  floor := rfl
  weight := (Nat.add_le_add_left (ownCues_sublist (s := s) (t := s.setMap m) rfl sub) _).trans (Nat.le_add_right _ _)

/-! ### A conflict lost -/

theorem conflictLoss_room (seq : Byte) {s : State} (room : s.packets.length < 8) : (conflictLoss seq s).text = s.text ∧
    (conflictLoss seq s).floor = s.floor ∧ (conflictLoss seq s).packets.length ≤ s.packets.length + 1 := by
  have ended := packets_length_endClaim seq s
  cases found : findEchoed seq s with
  | none =>
    rw [conflictLoss_none found]
    exact ⟨rfl, rfl, by omega⟩
  | some c =>
    rw [conflictLoss_some found]
    split
    · have free : (endClaim seq s).line.queue.length < 8 := by
        have := (endClaim seq s).queue_le_packets
        omega
      rw [queueCut_of_room _ _ _ free]
      refine ⟨by simp, by simp, ?_⟩
      simp only [State.packets, State.modLine, List.length_append, List.length_singleton] at ended ⊢
      omega
    · exact ⟨by simp, by simp, by omega⟩

theorem cuesGone_conflict_room {l : List Cue} {s : State}
    (room : s.packets.length + (l.filter fun c => decide (c.owner = s.own)).length ≤ 8) :
    (cuesGone .conflict l s).text = s.text ∧ (cuesGone .conflict l s).floor = s.floor ∧
      (cuesGone .conflict l s).packets.length ≤ s.packets.length + (l.filter fun c => decide (c.owner = s.own)).length := by
  induction l generalizing s with
  | nil => exact ⟨rfl, rfl, Nat.le_refl _⟩
  | cons c l ih =>
    have own : (cueGone .conflict c s).own = s.own := State.own_congr (by simp)
    by_cases mine : c.owner = s.own
    · rw [List.filter_cons_of_pos (by simpa using mine), List.length_cons] at room ⊢
      have lost : cueGone .conflict c s = conflictLoss c.seq s := if_pos mine
      obtain ⟨text, floor, packets⟩ := conflictLoss_room c.seq (s := s) (by omega)
      rw [← lost] at text floor packets
      obtain ⟨text', floor', packets'⟩ := ih (s := cueGone .conflict c s) (by rw [own]; omega)
      rw [own] at packets'
      exact ⟨text'.trans text, floor'.trans floor, packets'.trans (by omega)⟩
    · rw [List.filter_cons_of_neg (by simpa using mine)] at room ⊢
      have none : cueGone .conflict c s = s := if_neg mine
      unfold cuesGone
      rw [none]
      exact ih room

/-- Cues that leave the map at a conflict: a CUT for each of the station's own, at most. -/
theorem calm_conflict {l m : List Cue} {s : State} (few : s.weight ≤ 8)
    (whole : (m ++ l).Subperm s.map) : Calm 0 s (cuesGone .conflict l (s.setMap m)) := by
  have parts := (whole.filter fun c => decide (c.owner = s.own)).length_le
  rw [List.filter_append, List.length_append] at parts
  change _ ≤ s.ownCues at parts
  have packets : (s.setMap m).packets = s.packets := rfl
  unfold State.weight at few
  obtain ⟨text, floor, length⟩ := cuesGone_conflict_room (l := l) (s := s.setMap m) (by
    rw [packets]
    exact (Nat.add_le_add_left ((Nat.le_add_left ..).trans parts) _).trans few)
  have own : (cuesGone .conflict l (s.setMap m)).own = s.own := State.own_congr (by simp)
  have cues : (cuesGone .conflict l (s.setMap m)).ownCues = (m.filter fun c => decide (c.owner = s.own)).length := by
    rw [State.ownCues, own]
    simp
  refine ⟨by simp, text, floor, ?_⟩
  rw [State.weight, State.weight, cues]
  rw [packets] at length
  have same : (s.setMap m).own = s.own := rfl
  rw [same] at length
  omega

theorem calm_conflictTest {c : Cue} {s : State} (mem : c ∈ s.map) (few : s.weight ≤ 8) : Calm 0 s (conflictTest c s) := by
  unfold conflictTest
  dsimp only
  split
  · have self : [c].Sublist (s.map.filter fun d => d.isOf c.owner c.seq) :=
      List.singleton_sublist.mpr (List.mem_filter.mpr ⟨mem, Cue.isOf_iff.mpr ⟨rfl, rfl⟩⟩)
    have whole := List.filter_append_perm (fun d : Cue => d.isOf c.owner c.seq) s.map
    exact calm_conflict (l := [c]) few ((self.append_left _).subperm.trans (List.perm_append_comm.trans whole).subperm)
  · have against : (s.map.filter fun d => !d.same c && conflicts s.day d c) =
        s.map.filter fun d => !(d.same c || !conflicts s.day d c) :=
      List.filter_congr fun d _ => by rw [Bool.not_or, Bool.not_not]
    rw [against]
    exact calm_conflict few (List.filter_append_perm _ s.map).subperm

theorem calm_testAll (l : List Cue) {s : State} (few : s.weight ≤ 8) : Calm 0 s (testAll l s) := by
  induction l generalizing s with
  | nil => exact .refl s
  | cons c l ih =>
    unfold testAll
    split
    · next d found =>
      have calm := calm_conflictTest (findCue_mem found).1 few
      exact calm.quiet (ih (calm.weight.trans few))
    · exact ih few

/-! ### Entries and bounds -/

theorem calm_makeRowRoom (inHand : Cue → Bool) (row : Nat) (s : State) : Calm 0 s (makeRowRoom inHand row s) := by
  unfold makeRowRoom
  split
  · split
    · next v _ =>
      have left : Calm 0 s ((s.setMap (withoutCue v.owner v.seq s.map)).flag .mapFull) :=
        ⟨rfl, rfl, rfl, (calm_setMap (s := s) (withoutCue_sublist v.owner v.seq s.map)).weight⟩
      exact left.quiet (calm_cueGone_plain _ _)
    · exact .refl s
  · exact .refl s

theorem calm_makeEntries (inHand : Cue → Bool) (c : Cue) (s : State) : Calm 1 s (makeEntries inHand c s) := by
  have made : Calm 0 s (roomMade inHand c s) := by
    unfold roomMade
    split
    · exact (calm_makeRowRoom _ _ s).quiet (calm_makeRowRoom _ _ _)
    · exact calm_makeRowRoom _ _ s
  rw [makeEntries_eq]
  refine ⟨made.straps, made.text, made.floor, ?_⟩
  generalize roomMade inHand c s = u at made ⊢
  have entered : (u.setMap (insertCue u.day u.n c u.map)).ownCues ≤ u.ownCues + 1 := by
    refine (((insertCue_perm u.day u.n c u.map).filter fun d => decide (d.owner = u.own)).length_eq.le).trans ?_
    rw [List.filter_cons]
    split <;> simp [State.ownCues]
  have weight := made.weight
  have packets : (u.setMap (insertCue u.day u.n c u.map)).packets = u.packets := rfl
  rw [State.weight, State.weight] at weight ⊢
  rw [packets]
  omega

theorem calm_makeAllEntries (inHand : Cue → Bool) (l : List Cue) (s : State) : Calm l.length s (makeAllEntries inHand l s) := by
  induction l generalizing s with
  | nil => exact .refl s
  | cons c l ih =>
    have first : Calm (0 + 1) s (makeEntries inHand c (s.setMap (withoutCue c.owner c.seq s.map))) :=
      (calm_setMap (withoutCue_sublist _ _ _)).trans (calm_makeEntries _ _ _)
    rw [List.length_cons, Nat.add_comm]
    exact (Nat.zero_add 1 ▸ first).trans (ih _)

theorem boundNeighbours_units (c : Cue) (s : State) : ∃ m, boundNeighbours c s = s.setMap m := by
  unfold boundNeighbours
  split
  · exact ⟨_, rfl⟩
  · exact ⟨s.map, rfl⟩

theorem boundAll_units (l : List Cue) (s : State) : ∃ m, boundAll l s = s.setMap m := by
  induction l generalizing s with
  | nil => exact ⟨s.map, rfl⟩
  | cons c l ih =>
    obtain ⟨m, eq⟩ := boundNeighbours_units c s
    obtain ⟨m', eq'⟩ := ih (boundNeighbours c s)
    exact ⟨m', by rw [boundAll, eq', eq]; rfl⟩

/-- A STATE of the station's own leaves the text and the floor where the packets and the claims it lists are few. -/
theorem mapState_calm {l : List StateClaim} {s : State} (few : s.packets.length + l.length ≤ 8) :
    (mapState s.own l s).text = s.text ∧ (mapState s.own l s).floor = s.floor := by
  rw [mapState_eq]
  have none : (s.setMap (s.map.filter fun c => !decide (c.owner = s.own))).weight = s.packets.length := by
    have empty : ((s.map.filter fun c => !decide (c.owner = s.own)).filter fun c => decide (c.owner = s.own)) = [] := by
      simp
    exact (congrArg (s.packets.length + ·) (congrArg List.length empty)).trans (Nat.add_zero _)
  have listed : (listedCues s.own l s).length ≤ l.length := (List.length_filter_le ..).trans (by simp)
  have entered := calm_makeAllEntries (fun d => (listedCues s.own l s).any fun c => d.same c) (listedCues s.own l s)
    (s.setMap (s.map.filter fun c => !decide (c.owner = s.own)))
  have weight := entered.weight
  have tested := calm_testAll (listedCues s.own l s) (s := makeAllEntries (fun d => (listedCues s.own l s).any fun c => d.same c)
    (listedCues s.own l s) (s.setMap (s.map.filter fun c => !decide (c.owner = s.own)))) (by omega)
  obtain ⟨m, bounds⟩ := boundAll_units (listedCues s.own l s) (testAll (listedCues s.own l s)
    (makeAllEntries (fun d => (listedCues s.own l s).any fun c => d.same c) (listedCues s.own l s)
      (s.setMap (s.map.filter fun c => !decide (c.owner = s.own)))))
  rw [bounds]
  exact ⟨tested.text.trans entered.text, tested.floor.trans entered.floor⟩

/-! ### The echo of a STATE (R101) -/

theorem PlainKeeps.endUnlisted (l : List Cue) (s : State) : PlainKeeps s (endUnlisted l s) := by
  induction l generalizing s with
  | nil => exact .refl s
  | cons c l ih =>
    unfold Machine.endUnlisted
    split
    · exact (PlainKeeps.cueGone c s).trans (ih _)
    · exact ih s

theorem PlainKeeps.expireCues (s : State) : PlainKeeps s (expireCues s) :=
  (PlainKeeps.cuesGone _ _).same rfl rfl rfl rfl rfl

theorem stateEcho_number (b : StateBody) (s : State) : (stateEcho b s).item.number = s.item.number := by
  simp [stateEcho]

theorem stateEcho_calm {b : StateBody} {s : State} (few : s.packets.length + b.claims.length ≤ 8) :
    (stateEcho b s).floor = s.floor ∧ (stateEcho b s).text = s.text := by
  have calm := mapState_calm (l := b.claims) (s := announce s.own b s) few
  have rest := (PlainKeeps.endUnlisted (s.map.filter fun c => decide (c.owner = s.own))
    (mapState s.own b.claims (announce s.own b s))).trans (PlainKeeps.expireCues _)
  exact ⟨rest.floor.trans (calm.2.trans (by simp)), rest.text.trans (calm.1.trans (by simp))⟩

theorem stateEcho_own {b : StateBody} {s : State} {c : Cue} (mem : c ∈ (stateEcho b s).map) (own : c.owner = s.own) :
    ∃ k ∈ b.claims, c.seq = k.seq ∧ c.low = k.low ∧ c.count = k.count ∧ c.showAt = k.showAt ∧ c.minOff = k.minOff := by
  unfold stateEcho at mem
  dsimp only at mem
  rw [expireCues_map] at mem
  have known := (List.mem_filter.mp mem).1
  simp only [endUnlisted_frame] at known
  exact mapState_own known own

end Sys2Proof.Machine
end

section
/-! The packet in transmission read back (R80, R81, R87, R101, R111, R122, R136, R146, R151): O45. -/

namespace Sys2Proof.Machine

variable {s : State}

/-! ### The packet leaves the queue -/

/-- The station after its packet has been read back: the packet gone, its place taken, itself the last sender heard. -/
theorem heardEcho_eq {before after : List QPacket} {q : QPacket} (queue : s.line.queue = before ++ q :: after)
    (unsent : ∀ r ∈ before, r.sent = none) (sent : q.sent ≠ none) :
    markHeard s.own (packetLeft q s) = { s with
      line := { s.line with
        receiving := none, lastSender := s.own,
        queue := before ++ after ++ s.line.waiting.take (classPlaces - (before ++ after).length),
        waiting := s.line.waiting.drop (classPlaces - (before ++ after).length),
        peers := s.line.peers.set (s.own - 1)
          { s.line.peers.getD (s.own - 1) Peer.unheardOf with presence := .present, unheard := 0 } },
      item := { s.item with own :=
        if q.kind = .item then .none
        else if ∃ r ∈ s.line.waiting.take (classPlaces - (before ++ after).length), r.kind = .item then .queued
        else s.item.own } } := by
  have left : leaveQueue (endReception s) = { s with
      line := { s.line with
        receiving := none, queue := before ++ after ++ s.line.waiting.take (classPlaces - (before ++ after).length),
        waiting := s.line.waiting.drop (classPlaces - (before ++ after).length) },
      item := { s.item with own :=
        if ∃ r ∈ s.line.waiting.take (classPlaces - (before ++ after).length), r.kind = .item then .queued
        else s.item.own } } := by
    rw [leaveQueue, enterWaiting_item]
    simp only [endReception, State.modLine, LineUnit.entered, queue, eraseP_started unsent sent]
  unfold packetLeft
  rw [left]
  split <;> simp [markHeard, setPeer, State.modLine, State.modItem, *]

theorem exec_packetEcho {before after : List QPacket} {q : QPacket} {x : Sent} (queue : s.line.queue = before ++ q :: after)
    (unsent : ∀ r ∈ before, r.sent = none) (sent : q.sent = some x) (valid : packetValid s.own x.packet = true)
    (fits : packetFits s x.packet = true) :
    exec .packetEcho s = .next (finish (deliverEcho x (markHeard s.own (packetLeft q s)))) := by
  have sending := inTransmission_eq queue unsent (sent ▸ Option.some_ne_none x)
  have fits' : packetFits (markHeard s.own (packetLeft q s)) x.packet = true := by
    rw [packetFits_congr (s := s) (by simp [packetLeft_frame])]
    exact fits
  change execPacketEcho s = _
  rw [execPacketEcho, sending]
  simp only [sent]
  rw [echoAct_eq, if_pos valid, if_pos fits']

/-! ### CUE, REVISE and CUT -/

theorem cueEcho_known {b : CueBody} {c : Claim} (found : sendingClaim b.seq s = some c) :
    cueEcho b s = expireCues (airAtEcho b.seq (mapCue s.own b
      (pushReport (.claimed c.seq c.low c.count c.showAt c.minOff c.lingerOff) { s with
        claims := (s.claims.map fun d =>
          if d.seq = b.seq ∧ d.state = .sending then { d with state := .claimed } else d) }))) := by
  rw [cueEcho, found]
  rfl

theorem cueEcho_unknown {b : CueBody} (none : sendingClaim b.seq s = none) :
    cueEcho b s = expireCues (mapCue s.own b s) := by rw [cueEcho, none]

/-- The claims after the echo of a REVISE that carried `t`. -/
theorem reviseEcho_eq {b : CueBody} {t : Text} (known : ∃ c ∈ s.claims, c.seq = b.seq ∧ c.state ≠ .planned) {r w : State}
    (revised : pushReport (.revised b.seq) (updateClaim b.seq (Claim.revised t) s) = r)
    (next : (if (claimToRevise b.seq r).isSome && !hasPacket (PacketKind.isReviseOf b.seq) r then
      requestPacket (.revise b.seq) r else r) = w) :
    reviseEcho b t s = expireCues (mapRevise s.own b w) := by
  obtain ⟨c, mem, own, state⟩ := known
  obtain ⟨d, -, -, found⟩ := find?_claim_some (s := s) (seq := b.seq) (p := fun c => !c.isPlanned)
    ⟨c, mem, own, by simpa [Claim.isPlanned] using state⟩
  have same : w.own = s.own := by
    rw [← next, ← revised]
    split <;> exact State.own_congr (by simp [updateClaim])
  rw [reviseEcho, found]
  dsimp only
  rw [revised, next, same]

theorem claimToRevise_none {seq : Byte} (none : ∀ c ∈ s.claims, c.seq = seq → c.revision = .none) :
    claimToRevise seq s = .none :=
  find?_claim_none fun c mem own => by rw [none c mem own]; rfl

theorem claimToRevise_isSome {seq : Byte} {c : Claim} (mem : c ∈ s.claims) (own : c.seq = seq) (held : c.revision.isSome = true) :
    (claimToRevise seq s).isSome = true := by
  obtain ⟨d, -, -, found⟩ := find?_claim_some (s := s) (seq := seq) (p := fun c => c.revision.isSome) ⟨c, mem, own, held⟩
  rw [claimToRevise, found]
  rfl

/-- A claim whose revision is no longer than the text carried holds none afterwards. -/
theorem updateClaim_revised_settled {seq : Byte} {t : Text}
    (settled : ∀ c ∈ s.claims, c.seq = seq → c.revision = none ∨ c.revision = some t) :
    updateClaim seq (Claim.revised t) s = { s with
      claims := (s.claims.map fun c => if c.seq = seq then { c with text := t, revision := none } else c) } := by
  refine congrArg s.setClaims (List.map_congr_left fun c mem => ?_)
  by_cases own : c.seq = seq
  · rw [if_pos own, if_pos own, Claim.revised]
    rcases settled c mem own with none | same
    · simp [none]
    · simp [same]
  · rw [if_neg own, if_neg own]

theorem updateClaim_revised_again {seq : Byte} {t r : Text} (other : r ≠ t)
    (all : ∀ c ∈ s.claims, c.seq = seq → c.revision = some r) :
    updateClaim seq (Claim.revised t) s = { s with
      claims := (s.claims.map fun c => if c.seq = seq then { c with text := t } else c) } := by
  refine congrArg s.setClaims (List.map_congr_left fun c mem => ?_)
  by_cases own : c.seq = seq
  · rw [if_pos own, if_pos own, Claim.revised]
    simp [all c mem own, other]
  · rw [if_neg own, if_neg own]

theorem reviseEcho_settled {b : CueBody} {t : Text} (known : ∃ c ∈ s.claims, c.seq = b.seq ∧ c.state ≠ .planned)
    (settled : ∀ c ∈ s.claims, c.seq = b.seq → c.revision = none ∨ c.revision = some t) :
    reviseEcho b t s = expireCues (mapRevise s.own b (pushReport (.revised b.seq) { s with
      claims := (s.claims.map fun c => if c.seq = b.seq then { c with text := t, revision := none } else c) })) := by
  refine reviseEcho_eq known (congrArg _ (updateClaim_revised_settled settled)) (if_neg ?_)
  rw [claimToRevise_none]
  · simp
  · intro c mem own
    simp only [pushReport_frame, List.mem_map] at mem
    obtain ⟨d, -, rfl⟩ := mem
    split at own
    · next here => rw [if_pos here]
    · exact absurd own ‹_›

theorem reviseEcho_again {b : CueBody} {t r : Text} (other : r ≠ t) (known : ∃ c ∈ s.claims, c.seq = b.seq ∧ c.state ≠ .planned)
    (all : ∀ c ∈ s.claims, c.seq = b.seq → c.revision = some r)
    (none : ∀ p ∈ s.line.queue ++ s.line.waiting, p.kind ≠ .revise b.seq) :
    reviseEcho b t s = expireCues (mapRevise s.own b (requestPacket (.revise b.seq) (pushReport (.revised b.seq) { s with
      claims := (s.claims.map fun c => if c.seq = b.seq then { c with text := t } else c) }))) := by
  have known' := known
  obtain ⟨c, mem, own, -⟩ := known
  refine reviseEcho_eq known' (congrArg _ (updateClaim_revised_again other all)) (if_pos ?_)
  have hasnt : hasPacket (PacketKind.isReviseOf b.seq) (pushReport (.revised b.seq) { s with
      claims := (s.claims.map fun c => if c.seq = b.seq then { c with text := t } else c) }) = false := by
    rw [← Bool.not_eq_true, hasPacket_iff]
    rintro ⟨q, queued, is⟩
    exact none q (by simpa using queued) (PacketKind.isReviseOf_iff.mp is)
  rw [hasnt, claimToRevise_isSome (c := { c with text := t }) _ own]
  · rfl
  · simp [all c mem own]
  · simp only [pushReport_frame, List.mem_map]
    exact ⟨c, mem, if_pos own⟩

theorem cutEcho_plain {seq : Byte} {off : Frame} (none : ∀ c ∈ s.claims, c.seq = seq → c.emptied = false) :
    cutEcho seq off s = mapCut s.own seq off s := by
  have any : (s.claims.any fun c => decide (c.seq = seq) && c.emptied) = false := by
    rw [List.any_eq_false]
    intro c mem is
    rw [Bool.and_eq_true, decide_eq_true_iff] at is
    exact Bool.false_ne_true ((none c mem is.1).symm.trans is.2)
  unfold cutEcho
  rw [any]
  rfl

theorem cutEcho_emptied {seq : Byte} {off : Frame} (some : ∃ c ∈ s.claims, c.seq = seq ∧ c.emptied = true) :
    cutEcho seq off s = mapCut s.own seq off (pushReport (.revised seq) s) := by
  obtain ⟨c, mem, own, emptied⟩ := some
  have any : (s.claims.any fun c => decide (c.seq = seq) && c.emptied) = true :=
    List.any_eq_true.mpr ⟨c, mem, by simp [own, emptied]⟩
  unfold cutEcho
  rw [any]
  simp only [if_true]
  rw [takeCut, State.own_congr (s := s) (by simp)]

/-! ### TAKE, YIELD and ITEM -/

theorem forcedTakeView_own (s : State) :
    forcedTakeView s.own s = holdFloor { s with floor := { s.floor with successor := none } } := if_pos rfl

theorem ownPlainTake_holds (bidding : s.floor.state = .bidding) (holder : s.floor.holder = none)
    (successor : s.floor.successor = none) : ownPlainTake s = holdFloor s := by
  have view : ownTakeView s = holdFloor s := by simp [ownTakeView, takeOutcome, holder, successor]
  have live : (holdFloor s).floor.state ≠ .bidding := by
    rw [holdFloor_gained (.inl bidding), becomeLive_floor]
    dsimp only
    split <;> decide
  unfold ownPlainTake
  rw [view]
  exact if_neg live

theorem ownPlainTake_pends {p : Nat} (bidding : s.floor.state = .bidding) (holder : s.floor.holder = some p) (peer : p ≠ s.own)
    (successor : s.floor.successor = none) : ownPlainTake s = { s with floor := { s.floor with
      successor := some s.own, bidCount := 0, bidRunning := true, takeEchoed := true } } := by
  have view : ownTakeView s = setSuccessor (some s.own) s := by simp [ownTakeView, takeOutcome, holder, successor, peer]
  unfold ownPlainTake
  rw [view]
  exact (if_pos bidding).trans (if_pos rfl)

theorem ownPlainTake_lost {p : Nat} (bidding : s.floor.state = .bidding) (holder : s.floor.holder ≠ some s.own)
    (successor : s.floor.successor = some p) (peer : p ≠ s.own) : ownPlainTake s = loseBid s := by
  have view : ownTakeView s = s := by simp [ownTakeView, takeOutcome, holder, successor, peer]
  unfold ownPlainTake
  rw [view]
  exact (if_pos bidding).trans (if_neg (by simpa [successor] using peer))

theorem yieldedTo_eq_ite (p : Option Nat) (s : State) :
    yieldedTo p s = if ∃ k ∈ p, (peerEntry k s).presence = .silent then none else p := by
  cases p <;> simp [yieldedTo]

theorem yieldView_echo {p : Option Nat} (peer : p ≠ some s.own) : yieldView true p s =
    if (s.givenTo (yieldedTo p s)).onFloor then leaveFloor (s.givenTo (yieldedTo p s))
    else setFloor .idle ((s.givenTo (yieldedTo p s)).modFloor fun u => { u with yieldOwed := false }) := by
  have other : yieldedTo p s ≠ some s.own := by
    rw [yieldedTo_eq_ite]
    split
    · simp
    · exact peer
  unfold yieldView
  refine (if_pos rfl).trans ?_
  have given : setHolder (if yieldedTo p s = some s.own then none else yieldedTo p s) (setSuccessor none s) =
      s.givenTo (yieldedTo p s) := by
    rw [if_neg other]
    rfl
  exact given ▸ rfl

theorem yieldView_echo_onFloor {p : Option Nat} (peer : p ≠ some s.own)
    (on : s.floor.state = .live ∨ s.floor.state = .yielding) : yieldView true p s = leaveFloor (s.givenTo (yieldedTo p s)) := by
  rw [yieldView_echo peer, if_pos (State.onFloor_iff (s := s.givenTo (yieldedTo p s)).mpr on)]

theorem yieldView_echo_idle {p : Option Nat} (peer : p ≠ some s.own) (idle : s.floor.state = .idle) :
    yieldView true p s = { s with floor := { (s.givenTo (yieldedTo p s)).floor with yieldOwed := false } } := by
  have off : ¬ (s.givenTo (yieldedTo p s)).onFloor = true := by simp [State.onFloor, State.givenTo, idle]
  rw [yieldView_echo peer, if_neg off]
  simp [setFloor, State.modFloor, State.givenTo, idle]

/-- Settles O45: the station as its packet's readback leaves it, then the echo of each kind. -/
theorem echoIsTaken : Obligations.EchoIsTaken := by
  intro s before after q x queue unsent sent valid fits
  have act := exec_packetEcho queue unsent sent valid fits
  have heard := heardEcho_eq queue unsent (sent ▸ Option.some_ne_none x)
  intro free u
  replace heard : markHeard s.own (packetLeft q s) = u := heard
  rw [heard] at act
  have same : u.claims = s.claims ∧ u.floor = s.floor ∧ u.straps = s.straps ∧ u.ref = s.ref ∧ u.text = s.text ∧
      u.timer = s.timer ∧ u.map = s.map ∧ u.station = s.station ∧ u.item.number = s.item.number ∧
      u.item.lastBoundary = s.item.lastBoundary := ⟨rfl, rfl, rfl, rfl, rfl, rfl, rfl, rfl, rfl, rfl⟩
  have packets : u.packets.length = (before ++ after).length + s.line.waiting.length := by
    simp only [u, State.packets, List.append_assoc, List.take_append_drop, List.length_append]
    omega
  clear_value u
  obtain ⟨claims, floor, straps, ref, text, timer, map, station, number, lastBoundary⟩ := same
  have own : u.own = s.own := State.own_congr straps
  have dist : ∀ f g, s.dist f g = u.dist f g := fun f g => by simp only [State.dist, State.day_congr straps]
  have echoes : ∀ {v : State}, deliverEcho x u = v → exec .packetEcho s = .next (finish v) := fun eq => eq ▸ act
  rw [← claims, ← floor, ← own]
  refine ⟨fun b packet => ⟨fun c found => echoes ?_, fun none => echoes ?_⟩, fun b packet known settled => echoes ?_,
    fun b r packet other known all none => echoes ?_, fun seq off packet => ⟨fun none => echoes ?_, fun some => echoes ?_⟩,
    fun packet => echoes ?_, fun packet bidding holder successor => echoes ?_,
    fun p packet bidding holder peer successor => echoes ?_, fun p packet bidding holder successor peer => echoes ?_,
    fun p packet peer => ⟨fun on => echoes ?_, fun idle => echoes ?_⟩,
    fun b k packet => ⟨fun a last low high => echoes ?_, fun far => ⟨takeBoundary b k u, echoes ?_, ?_, ?_, ?_, ?_, ?_, ?_⟩⟩,
    fun b packet => ⟨stateEcho b u, echoes ?_, ?_, ?_, fun few => ?_, fun c mem mine => stateEcho_own mem mine⟩⟩
  · rw [deliverEcho, packet]
    exact cueEcho_known (by rw [sendingClaim, claims]; exact found)
  · rw [deliverEcho, packet]
    exact cueEcho_unknown (by rw [sendingClaim, claims]; exact none)
  · rw [deliverEcho, packet]
    exact reviseEcho_settled known settled
  · rw [deliverEcho, packet]
    exact reviseEcho_again other known all none
  · rw [deliverEcho, packet]
    exact cutEcho_plain none
  · rw [deliverEcho, packet]
    exact cutEcho_emptied some
  · rw [deliverEcho, packet]
    exact forcedTakeView_own u
  · rw [deliverEcho, packet]
    exact ownPlainTake_holds bidding holder successor
  · rw [deliverEcho, packet]
    exact ownPlainTake_pends bidding holder peer successor
  · rw [deliverEcho, packet]
    exact (ownPlainTake_lost bidding holder successor peer).trans (loseBid_of_bidding bidding)
  · rw [deliverEcho, packet]
    refine (yieldView_echo_onFloor peer on).trans ?_
    rw [yieldedTo_eq_ite]
    rfl
  · rw [deliverEcho, packet]
    refine (yieldView_echo_idle peer idle).trans ?_
    rw [yieldedTo_eq_ite]
    rfl
  · rw [deliverEcho, packet]
    exact if_pos (isDuplicate_of (lastBoundary.trans last) (dist a b ▸ low) (dist a b ▸ high))
  · rw [deliverEcho, packet]
    refine if_neg (Bool.not_eq_true _ ▸ isDuplicate_eq_false ?_)
    rw [lastBoundary]
    exact fun a last => dist a b ▸ far a last
  · exact takeBoundary_item b k u
  · rw [takeBoundary_pace, station, timer]
  · rw [takeBoundary_text, SameBuilder.closeOpen ⟨text, straps, ref, number⟩]
    split
    · rw [closeOpen_empty ‹_›]
    · rw [closeOpen_nonempty (Bool.eq_false_of_not_eq_true ‹_›)]
  · simp
  · simp
  · rw [takeBoundary_map]
    exact State.itemCuts_congr b straps ref map
  · rw [deliverEcho, packet]
  · rw [← ref]
    simp [stateEcho]
  · rw [stateEcho_number, number]
  · rw [← text]
    exact stateEcho_calm (by omega)

end Sys2Proof.Machine
end

section
/-! What a frame boundary makes of the Reference Unit and of the waits (R1, R3, R10 to R14, R118, R119, R145, R156, R157): O8. -/

namespace Sys2Proof.Machine

variable {s : State}

/-! ### The timecode load and the step -/

theorem loadDue_eq (s : State) : loadDue s = if s.straps.follow = true then none else s.ref.pendingLoad := by
  cases follow : s.straps.follow <;> simp [loadDue, State.anchoredStrap, follow]

theorem countedFrame_eq (s : State) : countedFrame s = (s.ref.n + 1) % s.day := rfl

theorem State.dist_self (s : State) (a : Frame) : s.dist a a = 0 := by
  have := s.day_pos
  exact frameDist_unique s.day_pos (by simp) (by omega) (by omega)

/-- The distance of the new frame from the frame counted is that of the load; with no load it is 0, and no step. -/
theorem isStep_eq (s : State) : isStep s = decide (∃ f ∈ loadDue s, s.dist ((s.ref.n + 1) % s.day) f ≠ 0) := by
  rw [isStep, decide_eq_decide, nextFrame, countedFrame_eq]
  cases loadDue s with
  | none => simp [s.dist_self]
  | some f => simp

theorem farStep_iff (d : Int) : farStep d = true ↔ 1 < d ∨ d < -1 := by simp [farStep]

theorem flagIf_flagged (b : Bool) (f : Sticky) (s : State) : s.flagIf b f = if b = true then State.flagged f s else s := by
  cases b <;> rfl

/-! ### The Reference Unit -/

theorem timecodeLostAct_ref (s : State) : (timecodeLostAct s).ref = { s.ref with
    status := if s.straps.follow = false ∧ 10 ≤ s.ref.tcSilence ∧ s.ref.status = .anchored then
      (if s.ref.peerSilence < 3 * s.fps then .following else .drifting) else s.ref.status } := by
  simp only [timecodeLostAct, timecodeLostDue_iff]
  split <;> rfl

theorem peerTimeAct_ref (s : State) : (peerTimeAct s).ref = { s.ref with
    status := if 3 * s.fps ≤ s.ref.peerSilence ∧ s.ref.status = .following then .drifting else s.ref.status } := by
  simp only [peerTimeAct, peerTimeDue_iff]
  split <;> rfl

theorem countFrame_ref (s : State) : (countFrame s).ref = { s.ref with
    n := (loadDue s).getD (countedFrame s), pendingLoad := if (loadDue s).isSome then none else s.ref.pendingLoad,
    tcSilence := if (loadDue s).isSome then 0 else min 10 (s.ref.tcSilence + 1),
    status := if (loadDue s).isSome then .anchored else s.ref.status,
    peerSilence := if s.ref.sourceSeen then s.ref.peerSilence else min (3 * s.fps) (s.ref.peerSilence + 1),
    sourceSeen := false } := by
  simp [countFrame, nextFrame]

theorem lineBoundary_ref (t : Moment) (s : State) : (lineBoundary t s).ref = { s.ref with guardOpen := false } := rfl

theorem countFrame_report (s : State) : (countFrame s).report =
    if ∃ f ∈ loadDue s, 1 < s.dist (countedFrame s) f ∨ s.dist (countedFrame s) f < -1 then
      (State.flagged .timeStep s).report else s.report := by
  simp only [countFrame, nextFrame, flagIf_flagged, Bool.and_eq_true, farStep_iff]
  cases loadDue s with
  | none => simp
  | some f =>
    simp only [Option.isSome_some, Option.getD_some, true_and, Option.mem_some_iff, exists_eq_left']
    split <;> rfl

/-- No block that acts after the waits have risen touches the Reference Unit. -/
theorem boundary_ref (t : Moment) (s : State) : (boundary t s).ref = (beginFrame t s).ref := by simp [boundary]

theorem beginFrame_ref (t : Moment) (s : State) :
    (beginFrame t s).ref = (peerTimeAct (timecodeLostAct (lineBoundary t (countFrame s)))).ref := by simp [beginFrame]

/-! ### The waits -/

theorem tickPeers_getElem? (own i : Nat) (l : List Peer) (k : Nat) :
    (tickPeers own i l)[k]? = l[k]?.map (tickPeer own (i + k)) := by
  induction l generalizing i k with
  | nil => simp [tickPeers]
  | cons p ps ih =>
    cases k with
    | zero => simp [tickPeers]
    | succ k => simp [tickPeers, ih, Nat.add_assoc, Nat.add_comm 1 k]

/-- Of the stations with an entry only those present and not the station's own are counted unheard; one without an entry is
absent. -/
theorem peerEntry_beginFrame (t : Moment) (s : State) {p : Nat} (numbered : 1 ≤ p) :
    peerEntry p (beginFrame t s) =
      if (peerEntry p s).presence = .present ∧ p ≠ s.own then
        { peerEntry p s with unheard := (peerEntry p s).unheard + 1 } else peerEntry p s := by
  have peers : (beginFrame t s).line.peers = tickPeers s.own 0 s.line.peers := by
    simp [beginFrame, tickLine, lineBoundary, State.own]
  have place : p - 1 + 1 = p := by omega
  simp only [peerEntry, peers, List.getD_eq_getElem?_getD, tickPeers_getElem?, Nat.zero_add]
  cases s.line.peers[p - 1]? with
  | none => simp [Peer.unheardOf]
  | some q => simp [tickPeer, place]

theorem beginFrame_floor (t : Moment) (s : State) : (beginFrame t s).floor = { s.floor with
    yieldCount := s.floor.yieldCount + (if s.floor.state = .yielding ∧ s.floor.yieldOwed = false then 1 else 0),
    bidCount := s.floor.bidCount + (if s.floor.state = .bidding ∧ s.floor.bidRunning = true then 1 else 0) } := by
  simp [beginFrame, tickFloor, add_ite]

theorem beginFrame_station (t : Moment) (s : State) : (beginFrame t s).station = { s.station with
    joinCount := s.station.joinCount + (if s.station.mode = .joining then 1 else 0),
    resetCount := s.station.resetCount + (if s.station.mode = .resetting then 1 else 0) } := by
  simp [beginFrame, tickStation, add_ite]

theorem beginFrame_line (t : Moment) (s : State) : (beginFrame t s).line = { s.line with
    idlePoint := if s.ref.guardOpen = true ∧ s.line.idle = true then t else s.line.idlePoint,
    receiving := s.line.receiving.map fun k => k + 1, phase := s.line.phase + 1, mismatch := s.line.mismatch - 1,
    peers := (beginFrame t s).line.peers } := by
  simp [beginFrame, tickLine, lineBoundary, countFrame_ref]

theorem beginFrame_report (t : Moment) (s : State) : (beginFrame t s).report = (countFrame s).report := by simp [beginFrame]

/-- Settles O8: the Reference Unit's acts one after the other, the waits field by field, and the blocks that act after them. -/
theorem boundaryNumbersFrame : Obligations.BoundaryNumbersFrame := by
  unfold Obligations.BoundaryNumbersFrame
  intro t s
  dsimp only
  simp only [← loadDue_eq]
  refine ⟨?_, beginFrame_floor t s, beginFrame_station t s, beginFrame_line t s,
    fun p numbered => peerEntry_beginFrame t s numbered, ?_, by simp, by simp, by simp, by simp, by simp,
    by simp, by simp, ?_⟩
  · have straps : (lineBoundary t (countFrame s)).straps = s.straps := by simp
    have fps : (lineBoundary t (countFrame s)).fps = s.fps := by simp [State.fps]
    have fps_lost : (timecodeLostAct (lineBoundary t (countFrame s))).fps = s.fps := by simp [State.fps]
    rw [boundary_ref, beginFrame_ref, peerTimeAct_ref, timecodeLostAct_ref, lineBoundary_ref, countFrame_ref, straps, fps,
      fps_lost]
    rfl
  · rw [beginFrame_report, countFrame_report, countedFrame_eq]
  · rw [← isStep_eq]
    rfl

end Sys2Proof.Machine
end

section
/-! What airs, ends with OFF, goes stale and closes at a boundary (R15, R27, R31, R74, R78, R79, R104): O9. -/

namespace Sys2Proof.Machine

variable {s : State}

/-! ### The claims that go on air (R78, R15) -/

/-- The claim is CLAIMED and its show is the new n, or at or before it at a step. -/
abbrev State.due (step : Bool) (s : State) (c : Claim) : Prop :=
  c.state = .claimed ∧ (c.showAt = s.n ∨ (step = true ∧ 0 ≤ s.dist c.showAt s.n))

theorem goesOnAir_iff (step : Bool) (s : State) (c : Claim) : goesOnAir step s c = true ↔ s.due step c := by
  simp [goesOnAir, State.due, atOrBefore, State.dist]

theorem cueEnded_iff (s : State) (d : Cue) : cueEnded s d = true ↔ 0 ≤ s.dist d.offBound s.n := s.atOrBefore_iff _ _

theorem mem_airClaims {step : Bool} {c : Claim} :
    c ∈ airClaims step s ↔ (c ∈ s.claims ∧ ¬ s.due step c) ∨ ∃ d ∈ s.claims, s.due step d ∧ c = { d with state := .onAir } := by
  simp only [airClaims, List.mem_map, ← goesOnAir_iff]
  constructor
  · rintro ⟨d, mem, rfl⟩
    by_cases due : goesOnAir step s d = true
    · exact .inr ⟨d, mem, due, if_pos due⟩
    · rw [if_neg due]
      exact .inl ⟨mem, due⟩
  · rintro (⟨mem, due⟩ | ⟨d, mem, due, rfl⟩)
    · exact ⟨c, mem, if_neg due⟩
    · exact ⟨d, mem, if_pos due⟩

theorem airClaims_seq (step : Bool) (s : State) : (airClaims step s).map Claim.seq = s.claims.map Claim.seq := by
  simp only [airClaims, List.map_map]
  refine List.map_congr_left fun c _ => ?_
  simp only [Function.comp]
  split <;> rfl

/-! ### The claims that end (R79) -/

/-- The claim of this cue that ends with it. -/
def claimEnds (seq : Byte) (c : Claim) : Bool := decide (c.seq = seq) && c.echoed

theorem claimEnds_iff (seq : Byte) (c : Claim) :
    claimEnds seq c = true ↔ c.seq = seq ∧ (c.state = .claimed ∨ c.state = .onAir) := by
  rw [claimEnds, Bool.and_eq_true, decide_eq_true_iff, echoed_iff]

theorem endClaim_none {seq : Byte} (none : ∀ c ∈ s.claims, ¬ (c.seq = seq ∧ (c.state = .claimed ∨ c.state = .onAir))) :
    endClaim seq s = s := by
  rw [endClaim, findEchoed_none none]

theorem endClaim_first {seq : Byte} {before after : List Claim} {c : Claim} (claims : s.claims = before ++ c :: after)
    (none : ∀ d ∈ before, ¬ (d.seq = seq ∧ (d.state = .claimed ∨ d.state = .onAir)))
    (ends : c.seq = seq ∧ (c.state = .claimed ∨ c.state = .onAir)) :
    endClaim seq s = pushReport (.off seq s.n) (removeUnstarted (PacketKind.isReviseOf seq)
      { s with claims := before ++ after }) := by
  have left : s.claims.eraseP (claimEnds seq) = before ++ after := by
    rw [claims, List.eraseP_append_right _ fun d mem => (claimEnds_iff seq d).not.mpr (none d mem),
      List.eraseP_cons_of_pos ((claimEnds_iff seq c).mpr ends)]
  have same : (removeUnstarted (PacketKind.isReviseOf seq) (s.setClaims (s.claims.eraseP (claimEnds seq)))).n = s.n := by
    simp [State.n]
  rw [endClaim, findEchoed_first claims none ends]
  change pushReport (.off seq (removeUnstarted _ (s.setClaims (s.claims.eraseP (claimEnds seq)))).n) _ = _
  rw [same, ← left]
  rfl

theorem endClaim_claims (seq : Byte) (s : State) : (endClaim seq s).claims = s.claims.eraseP (claimEnds seq) := by
  unfold endClaim findEchoed
  split
  · simp
    rfl
  · next none =>
    exact (List.eraseP_of_forall_not fun c mem => List.find?_eq_none.mp none c mem).symm

/-- The claims left when this cue has ended. -/
def claimsAfter (own : Nat) (d : Cue) (claims : List Claim) : List Claim :=
  if d.owner = own then claims.eraseP (claimEnds d.seq) else claims

/-- The claims left when the cues of a list have ended. -/
def claimsLeft (own : Nat) : List Cue → List Claim → List Claim
  | [], claims => claims
  | d :: l, claims => claimsLeft own l (claimsAfter own d claims)

theorem claimsAfter_sublist (own : Nat) (d : Cue) (claims : List Claim) : (claimsAfter own d claims).Sublist claims := by
  unfold claimsAfter
  split
  · exact List.eraseP_sublist
  · exact .refl _

theorem cuesGone_plain (l : List Cue) {own : Nat} {s : State} (same : s.own = own) : cuesGone .plain l s =
    l.foldl (fun u d => if d.owner = own then endClaim d.seq u else u) s := by
  induction l generalizing s with
  | nil => rfl
  | cons c l ih =>
    rw [cuesGone, ih ((State.own_congr (by simp)).trans same), List.foldl_cons, cueGone, same]

theorem cuesGone_plain_claims (l : List Cue) {own : Nat} {s : State} (same : s.own = own) :
    (cuesGone .plain l s).claims = claimsLeft own l s.claims := by
  induction l generalizing s with
  | nil => rfl
  | cons d l ih =>
    rw [cuesGone, ih ((State.own_congr (by simp)).trans same), claimsLeft, claimsAfter, cueGone, same]
    split <;> simp [endClaim_claims]

section
variable {own : Nat} {l : List Cue} {claims : List Claim} {c : Claim}

theorem claimsLeft_sublist (own : Nat) (l : List Cue) (claims : List Claim) : (claimsLeft own l claims).Sublist claims := by
  induction l generalizing claims with
  | nil => exact .refl _
  | cons d l ih => exact (ih _).trans (claimsAfter_sublist own d claims)

theorem mem_claimsLeft_of_other (mem : c ∈ claims) (other : ∀ d ∈ l, d.owner = own → d.seq ≠ c.seq) :
    c ∈ claimsLeft own l claims := by
  induction l generalizing claims with
  | nil => exact mem
  | cons d l ih =>
    refine ih ?_ fun e later => other e (.tail _ later)
    unfold claimsAfter
    split
    · next mine =>
      refine (List.mem_eraseP_of_neg fun ends => ?_).mpr mem
      exact other d (.head _) mine ((claimEnds_iff _ _).mp ends).1.symm
    · exact mem

/-- With one claim to a sequence, no echoed claim of an own cue that ended is left. -/
theorem not_mem_claimsLeft (apart : (claims.map Claim.seq).Nodup) {d : Cue} (ended : d ∈ l) (mine : d.owner = own)
    (ends : claimEnds d.seq c = true) : c ∉ claimsLeft own l claims := by
  induction l generalizing claims with
  | nil => cases ended
  | cons e l ih =>
    intro mem
    rcases List.mem_cons.mp ended with rfl | later
    · have known := (claimsLeft_sublist own l _).mem mem
      rw [claimsAfter, if_pos mine] at known
      obtain ⟨first, before, after, -, firstEnds, parts, erased⟩ :=
        List.exists_of_eraseP (List.eraseP_sublist.mem known) ends
      rw [erased] at known
      have twice : first.seq = c.seq := ((claimEnds_iff _ _).mp firstEnds).1.trans ((claimEnds_iff _ _).mp ends).1.symm
      rw [parts, List.map_append, List.map_cons, List.nodup_middle, ← List.map_append, twice] at apart
      exact (List.nodup_cons.mp apart).1 (List.mem_map_of_mem known)
    · exact ih (apart.sublist ((claimsAfter_sublist own e claims).map _)) later mem

end

theorem claimsLeft_append (own : Nat) (k l : List Cue) (claims : List Claim) :
    claimsLeft own (k ++ l) claims = claimsLeft own l (claimsLeft own k claims) := by
  induction k generalizing claims with
  | nil => rfl
  | cons d k ih => exact ih _

/-! ### The claims and the reports together -/

/-- The cues that leave: the off bound is at or before n. -/
def State.endedCues (s : State) : List Cue := s.map.filter (cueEnded s)

theorem mem_endedCues {d : Cue} : d ∈ s.endedCues ↔ d ∈ s.map ∧ 0 ≤ s.dist d.offBound s.n := by
  rw [State.endedCues, List.mem_filter, cueEnded_iff]

/-- The claims on air and the ended cues out of the map, before any report. -/
def State.aired (step : Bool) (s : State) : State :=
  { s with claims := airClaims step s, map := s.map.filter fun c => !cueEnded s c }

theorem cuesGone_reported_claims {own : Nat} {v : State} (same : v.own = own) (first rest : List Cue) (k : List Report) :
    (cuesGone .plain rest (pushReports k (cuesGone .plain first v))).claims = claimsLeft own (first ++ rest) v.claims := by
  rw [cuesGone_plain_claims rest ((State.own_congr (by simp)).trans same), claimsLeft_append]
  simp only [pushReports_frame]
  rw [cuesGone_plain_claims first same]

/-- Whatever the order of the reports, the claims of all ended cues end. -/
theorem showAndExpire_claims (step : Bool) (s : State) :
    ∃ l, (∀ d, d ∈ l ↔ d ∈ s.endedCues) ∧ (showAndExpire step s).claims = claimsLeft s.own l (airClaims step s) := by
  have told (orders : Nat) := cuesGone_reported_claims (own := s.own) (v := { s.aired step with openOrders := orders }) rfl
  refine ⟨_, ?_, told _ _ _ _⟩
  intro d
  split
  · exact (List.filter_append_perm _ _).mem_iff
  · simp [State.endedCues]

/-- When nothing airs or nothing leaves, and at a step, ON AIR stands before OFF. -/
theorem showAndExpire_ordered {step : Bool} (ordered : step = true ∨ (∀ c ∈ s.claims, ¬ s.due step c) ∨ s.endedCues = []) :
    showAndExpire step s = cuesGone .plain s.endedCues
      (pushReports (onAirReports s.n (s.claims.filter (goesOnAir step s))) (s.aired step)) := by
  have settled (other : Cue → Bool) :
      (!step && !(s.claims.filter (goesOnAir step s)).isEmpty && !(s.endedCues.filter other).isEmpty) = false := by
    rcases ordered with rfl | none | none
    · rfl
    · have : s.claims.filter (goesOnAir step s) = [] :=
        List.filter_eq_nil_iff.mpr fun c mem => (goesOnAir_iff step s c).not.mpr (none c mem)
      simp [this]
    · simp [none]
  unfold State.endedCues at settled
  simp only [showAndExpire, settled, Bool.false_and]
  rfl

theorem filter_not_cueEnded (s : State) :
    (s.map.filter fun d => !cueEnded s d) = s.map.filter fun d => decide (s.dist d.offBound s.n < 0) := by
  refine List.filter_congr fun d _ => ?_
  rw [Bool.eq_iff_iff, Bool.not_eq_true', ← Bool.not_eq_true, cueEnded_iff, decide_eq_true_iff, Int.not_le]

theorem aired_eq (step : Bool) (s : State) : s.aired step = { s with
    claims := s.claims.map fun c => if s.due step c then { c with state := .onAir } else c,
    map := s.map.filter fun d => decide (s.dist d.offBound s.n < 0) } := by
  have claims : airClaims step s = s.claims.map fun c => if s.due step c then { c with state := .onAir } else c :=
    List.map_congr_left fun c _ => by simp only [goesOnAir_iff]
  rw [State.aired, claims, filter_not_cueEnded]

theorem onAirReports_eq (step : Bool) (s : State) : onAirReports s.n (s.claims.filter (goesOnAir step s)) =
    (s.claims.filter fun c => decide (s.due step c)).map fun c => .onAir c.seq s.n := by
  refine congrArg (List.map _) (List.filter_congr fun c _ => ?_)
  rw [Bool.eq_iff_iff, goesOnAir_iff, decide_eq_true_iff]

/-- The claim's cue leaves the map. -/
abbrev State.cueLeaves (s : State) (c : Claim) : Prop :=
  ∃ d ∈ s.map, d.owner = s.own ∧ d.seq = c.seq ∧ 0 ≤ s.dist d.offBound s.n

theorem mem_airClaims_of_shown {step : Bool} {c : Claim} (mem : c ∈ (showAndExpire step s).claims) :
    c ∈ airClaims step s := by
  obtain ⟨l, -, claims⟩ := showAndExpire_claims step s
  rw [claims] at mem
  exact (claimsLeft_sublist _ _ _).mem mem

theorem mem_shown_of_airClaims {step : Bool} {c : Claim} (mem : c ∈ airClaims step s) (stands : ¬ s.cueLeaves c) :
    c ∈ (showAndExpire step s).claims := by
  obtain ⟨l, ended, claims⟩ := showAndExpire_claims step s
  rw [claims]
  refine mem_claimsLeft_of_other mem fun d out mine seq => ?_
  obtain ⟨listed, past⟩ := mem_endedCues.mp ((ended d).mp out)
  exact stands ⟨d, listed, mine, seq, past⟩

theorem not_mem_shown {step : Bool} {c : Claim} (apart : (s.claims.map Claim.seq).Nodup)
    (echoed : c.state = .claimed ∨ c.state = .onAir) (leaves : s.cueLeaves c) : c ∉ (showAndExpire step s).claims := by
  obtain ⟨l, ended, claims⟩ := showAndExpire_claims step s
  obtain ⟨d, listed, mine, seq, past⟩ := leaves
  rw [← airClaims_seq step s] at apart
  rw [claims]
  exact not_mem_claimsLeft apart ((ended d).mpr (mem_endedCues.mpr ⟨listed, past⟩)) mine
    ((claimEnds_iff _ _).mpr ⟨seq.symm, echoed⟩)

theorem showAndExpire_eq {step : Bool} (ordered : step = true ∨ ∀ c ∈ s.claims, ¬ s.due step c) :
    showAndExpire step s = (s.map.filter fun d => decide (0 ≤ s.dist d.offBound s.n)).foldl
      (fun v d => if d.owner = s.own then endClaim d.seq v else v)
      (pushReports ((s.claims.filter fun c => decide (s.due step c)).map fun c => .onAir c.seq s.n)
        { s with
          claims := s.claims.map fun c => if s.due step c then { c with state := .onAir } else c,
          map := s.map.filter fun d => decide (s.dist d.offBound s.n < 0) }) := by
  rw [showAndExpire_ordered (ordered.imp_right .inl), aired_eq, onAirReports_eq,
    cuesGone_plain _ (own := s.own) (State.own_congr (by simp))]
  rfl

theorem showAndExpire_unended {step : Bool} (stand : ∀ d ∈ s.map, s.dist d.offBound s.n < 0) :
    showAndExpire step s = pushReports ((s.claims.filter fun c => decide (s.due step c)).map fun c => .onAir c.seq s.n)
      { s with claims := s.claims.map fun c => if s.due step c then { c with state := .onAir } else c } := by
  have none : s.endedCues = [] := List.eq_nil_iff_forall_not_mem.mpr fun d ended => by
    obtain ⟨listed, past⟩ := mem_endedCues.mp ended
    exact absurd (stand d listed) (by omega)
  have map : (s.map.filter fun d => decide (s.dist d.offBound s.n < 0)) = s.map :=
    List.filter_eq_self.mpr fun d listed => decide_eq_true (stand d listed)
  rw [showAndExpire_ordered (.inr (.inr none)), aired_eq, onAirReports_eq, none, map]
  rfl

/-! ### The PLANNED claims that go stale waiting (R74) -/

theorem notPlannedFrom_spares {p : Claim → Bool} {l : List Claim} {c : Claim} (kept : c ∈ notPlannedFrom p l)
    (planned : c.state = .planned) : p c = false := by
  induction l with
  | nil => cases kept
  | cons d l ih =>
    unfold notPlannedFrom at kept
    split at kept
    · exact absurd (List.mem_filter.mp kept).2 (by simp [Claim.isPlanned, planned])
    · next skip =>
      rcases List.mem_cons.mp kept with rfl | later
      · exact Bool.eq_false_iff.mpr fun picks => skip (picked_iff.mpr ⟨planned, picks⟩)
      · exact ih later

theorem mem_notPlannedFrom_of_state {p : Claim → Bool} {l : List Claim} {c : Claim} (listed : c ∈ l)
    (other : c.state ≠ .planned) : c ∈ notPlannedFrom p l :=
  ((plannedFrom_split p l).1 c |>.mp listed).resolve_left fun gone =>
    other (of_decide_eq_true ((plannedFrom_split p l).2 c gone))

/-! ### Ageing and the idle close (R31, R27) -/

theorem ageQueue_none (young : ∀ b ∈ s.text.queue, ¬ (s.pacing.active.lmax : Int) < s.dist b.arrival s.n) :
    ageQueue s = s := by
  have none : s.text.queue.filter (tooOld s) = [] :=
    List.filter_eq_nil_iff.mpr fun b mem old => young b mem (of_decide_eq_true old)
  simp [ageQueue, none]

theorem ageQueue_some {b : Block} {rest : List Block} (queue : s.text.queue = b :: rest)
    (some : ∃ x ∈ s.text.queue, (s.pacing.active.lmax : Int) < s.dist x.arrival s.n) :
    ageQueue s = pushReports ((s.text.queue.filter fun x =>
        decide ((s.pacing.active.lmax : Int) < s.dist x.arrival s.n)).map fun x => .dropped .stale (.some x.seq))
      (State.flagged .staleDrop { s with
        text := { s.text with
          queue := s.text.queue.filter fun x => decide (¬ (s.pacing.active.lmax : Int) < s.dist x.arrival s.n) },
        timer := { s.timer with
          hold := if (s.pacing.active.lmax : Int) < s.dist b.arrival s.n then false else s.timer.hold } }) := by
  obtain ⟨x, mem, old⟩ := some
  have leaves : (s.text.queue.filter (tooOld s)).isEmpty = false := by
    rw [List.isEmpty_eq_false_iff]
    exact List.ne_nil_of_mem (List.mem_filter.mpr ⟨mem, decide_eq_true old⟩)
  have young (y : Block) : (!tooOld s y) = decide (¬ (s.pacing.active.lmax : Int) < s.dist y.arrival s.n) := by
    rw [tooOld, blockAge, decide_not]
  have hold : (s.timer.hold && !tooOld s b) =
      if (s.pacing.active.lmax : Int) < s.dist b.arrival s.n then false else s.timer.hold := by
    rw [young]
    split <;> simp [*]
  rw [queue] at leaves
  rw [ageQueue, ← hold]
  simp only [leaves, queue, young, Bool.false_eq_true, if_false, State.modText]
  rfl

theorem ageQueue_idle (s : State) : (ageQueue s).text = { s.text with queue := (ageQueue s).text.queue } := by
  unfold ageQueue
  dsimp only
  split
  · rfl
  · simp

theorem ageQueue_composeEmpty (s : State) : (ageQueue s).text.composeEmpty = s.text.composeEmpty := by
  rw [ageQueue_idle]
  rfl

theorem tickIdle_empty (empty : s.text.composeEmpty = true) : tickIdle s = s := by
  simp [tickIdle, empty, State.modText]

theorem builderBoundary_empty (empty : s.text.composeEmpty = true) : builderBoundary s = ageQueue s := by
  have aged : (ageQueue s).text.composeEmpty = true := (ageQueue_composeEmpty s).trans empty
  have undue : ¬ idleDue (ageQueue s) = true := by simp [idleDue_iff, aged]
  rw [builderBoundary, tickIdle_empty aged, idleCloseAct, if_neg undue]

theorem tickIdle_open (nonempty : s.text.composeEmpty = false) :
    tickIdle s = { s with text := { s.text with idleCount := s.text.idleCount + 1 } } := by
  simp [tickIdle, nonempty, State.modText]

theorem builderBoundary_open (nonempty : s.text.composeEmpty = false) : builderBoundary s =
    if s.pacing.active.pi ≤ s.text.idleCount + 1 then
      closeBlock .idle (completeWord { ageQueue s with text := { (ageQueue s).text with idleCount := s.text.idleCount + 1 } })
    else { ageQueue s with text := { (ageQueue s).text with idleCount := s.text.idleCount + 1 } } := by
  have aged : (ageQueue s).text.composeEmpty = false := (ageQueue_composeEmpty s).trans nonempty
  have count : (ageQueue s).text.idleCount = s.text.idleCount := by rw [ageQueue_idle]
  have risen := tickIdle_open aged
  rw [count] at risen
  rw [builderBoundary, risen, idleCloseAct, closeOpen_nonempty (by exact aged)]
  refine if_congr ((idleDue_iff _).trans ?_) rfl rfl
  simp only [ageQueue_frame]
  exact and_iff_right aged

/-- Settles O9: the claims that air and end, the end of one claim, and the stale claims and blocks and the idle close. -/
theorem boundaryAirsAndExpires : Obligations.BoundaryAirsAndExpires := by
  unfold Obligations.BoundaryAirsAndExpires
  refine ⟨fun step s => ?shown, fun seq s => ?ended, fun s => ?builder⟩
  case shown =>
    dsimp only
    refine ⟨fun c mem claimed => ?claimed, fun c mem onAir => ?onAir,
      fun c mem stands => ⟨fun due => ?airs, fun undue => ?stands⟩, fun apart c mem echoed leaves => ?ends,
      showAndExpire_unended, showAndExpire_eq, ?map⟩
    case claimed =>
      rcases mem_airClaims.mp (mem_airClaims_of_shown mem) with ⟨-, undue⟩ | ⟨d, -, -, rfl⟩
      · refine ⟨fun now => undue ⟨claimed, .inl now⟩, fun step => Int.not_le.mp fun past => ?_⟩
        exact undue ⟨claimed, .inr ⟨step, past⟩⟩
      · cases claimed
    case onAir =>
      refine (mem_airClaims.mp (mem_airClaims_of_shown mem)).imp And.left ?_
      rintro ⟨d, listed, ⟨claimed, due⟩, rfl⟩
      exact ⟨d, listed, claimed, rfl, due⟩
    case airs => exact mem_shown_of_airClaims (mem_airClaims.mpr (.inr ⟨c, mem, due, rfl⟩)) stands
    case stands => exact mem_shown_of_airClaims (mem_airClaims.mpr (.inl ⟨mem, undue⟩)) stands
    case ends => exact not_mem_shown apart echoed leaves mem
    case map => rw [showAndExpire_map, filter_not_cueEnded]
  case ended =>
    exact ⟨endClaim_none, fun before c after => endClaim_first⟩
  case builder =>
    dsimp only
    refine ⟨rfl, fun c mem planned => ?_, fun c mem other => ?_, ageQueue_none, fun b rest => ageQueue_some,
      builderBoundary_empty, builderBoundary_open⟩
    · rw [staleWaiting, handBack_claims] at mem
      simpa using notPlannedFrom_spares mem planned
    · rw [staleWaiting, handBack_claims]
      exact mem_notPlannedFrom_of_state mem other

end Sys2Proof.Machine
end

section
/-! The bytes of every valid packet are read as that packet (R143, R144, R170 to R172): O60. -/

namespace Sys2Proof.Machine

/-! ### The fields -/

theorem byte_toNat {k : Nat} (fits : k < 256) : (BitVec.ofNat 8 k).toNat = k := by
  rw [BitVec.toNat_ofNat]
  exact Nat.mod_eq_of_lt fits

theorem isStation_iff (k : Nat) : isStation k = true ↔ 1 ≤ k ∧ k ≤ 16 := by simp [isStation]

theorem frameOf_bytes {f : Nat} (fits : isFrameField f = true) :
    frameOf (BitVec.ofNat 8 (f / 65536)) (BitVec.ofNat 8 (f / 256)) (BitVec.ofNat 8 f) = f := by
  have below : f < 16777216 := of_decide_eq_true fits
  simp only [frameOf, BitVec.toNat_ofNat]
  change @Eq Nat _ _
  omega

theorem spanValid_iff (low count : Nat) : spanValid low count = true ↔ low < 16 ∧ 1 ≤ count ∧ count ≤ 2 := by
  simp [spanValid, and_assoc]

theorem spanByte_toNat {low count : Nat} (valid : spanValid low count = true) :
    (spanByte low count).toNat / 16 = low ∧ (spanByte low count).toNat % 16 = count := by
  obtain ⟨low_lt, _, count_le⟩ := (spanValid_iff low count).mp valid
  rw [spanByte, byte_toNat (by omega)]
  omega

theorem cueFlags_bits (speaker : Bool) (source : Source) :
    (cueFlags speaker source).getLsbD 0 = speaker ∧
      (if (cueFlags speaker source).getLsbD 1 then Source.script else .live) = source := by
  cases speaker <;> cases source <;> decide

theorem holderOf_byte {q : Option Nat} (valid : holderValid q = true) : holderOf (holderByte q) = q := by
  cases q with
  | none => rfl
  | some k =>
    have station : isStation k = true := valid
    obtain ⟨_, le⟩ := (isStation_iff k).mp station
    rw [holderByte, holderOf, byte_toNat (by omega), if_pos station]

theorem timeOf_code (status : TimeStatus) : timeOf (timeCode status) = some status := by cases status <;> rfl

theorem floorOf_code (floor : FloorState) : floorOf (floorCode floor) = some floor := by cases floor <;> rfl

theorem take_bit (forced : Bool) : (if forced then 1 else 0 : Byte).getLsbD 0 = forced := by cases forced <;> rfl

/-! ### A CUE or REVISE -/

theorem rowValid_iff (r : List Byte) : rowValid r = true ↔ 1 ≤ r.length ∧ r.length ≤ 42 := by simp [rowValid]

theorem readRows_flatten {count : Nat} {rows : List (List Byte)} (many : 1 ≤ count ∧ count ≤ 2) (length : rows.length = count)
    (valid : ∀ r ∈ rows, rowValid r = true) :
    readRows count (BitVec.ofNat 8 (rows.headD []).length).toNat rows.flatten = rows ∧
      rowsFit count (BitVec.ofNat 8 (rows.headD []).length).toNat rows.flatten = true := by
  subst length
  match rows, many with
  | r :: others, many =>
    obtain ⟨-, le⟩ := (rowValid_iff r).mp (valid r (.head _))
    have n1 : (BitVec.ofNat 8 ((r :: others).headD []).length).toNat = r.length := byte_toNat (by simp; omega)
    rw [n1]
    match others, many with
    | [], _ => simp [readRows, rowsFit]
    | [r₂], _ => simp [readRows, rowsFit]

theorem CueBody.valid_iff (b : CueBody) : CueBody.valid b = true ↔
    spanValid b.low b.count = true ∧ isFrameField b.showAt = true ∧ isFrameField b.minOff = true ∧
      isFrameField b.lingerOff = true ∧ b.gap ≤ 3 ∧ b.rows.length = b.count ∧ ∀ r ∈ b.rows, rowValid r = true := by
  simp [CueBody.valid, and_assoc]

theorem readCue_bytes {b : CueBody} (valid : CueBody.valid b = true) : readCue (CueBody.bytes b) = some b := by
  obtain ⟨span, showAt, minOff, lingerOff, gap, length, rows⟩ := (CueBody.valid_iff b).mp valid
  obtain ⟨low, count⟩ := spanByte_toNat span
  obtain ⟨speaker, source⟩ := cueFlags_bits b.speaker b.source
  obtain ⟨read, fits⟩ := readRows_flatten ((spanValid_iff _ _).mp span).2 length rows
  have gap_byte : (BitVec.ofNat 8 b.gap).toNat = b.gap := byte_toNat (by omega)
  simp only [CueBody.bytes, frameBytes, List.cons_append, List.nil_append, readCue, low, count, frameOf_bytes showAt,
    frameOf_bytes minOff, frameOf_bytes lingerOff, gap_byte, speaker, source, read, fits, valid, Bool.true_and, if_true]

/-! ### A STATE -/

theorem StateClaim.valid_iff (c : StateClaim) : StateClaim.valid c = true ↔
    spanValid c.low c.count = true ∧ isFrameField c.showAt = true ∧ isFrameField c.minOff = true ∧
      isFrameField c.offBound = true := by
  simp [StateClaim.valid, and_assoc]

theorem readClaims_bytes {l : List StateClaim} (valid : ∀ c ∈ l, StateClaim.valid c = true) :
    readClaims l.length (l.flatMap StateClaim.bytes) = some l := by
  induction l with
  | nil => rfl
  | cons c l ih =>
    obtain ⟨span, showAt, minOff, offBound⟩ := (StateClaim.valid_iff c).mp (valid c (.head _))
    obtain ⟨low, count⟩ := spanByte_toNat span
    simp only [List.flatMap_cons, StateClaim.bytes, frameBytes, List.cons_append, List.nil_append, List.length_cons,
      readClaims, ih fun d mem => valid d (.tail _ mem), low, count, frameOf_bytes showAt, frameOf_bytes minOff,
      frameOf_bytes offBound]

theorem StateBody.valid_iff (b : StateBody) : StateBody.valid b = true ↔
    b.rate < 256 ∧ b.displayRows < 256 ∧ b.width < 256 ∧ isFrameField b.frame = true ∧ holderValid b.holder = true ∧
      b.claims.length ≤ 4 ∧ ∀ c ∈ b.claims, StateClaim.valid c = true := by
  simp [StateBody.valid, and_assoc]

theorem readState_bytes {b : StateBody} (valid : StateBody.valid b = true) : readState (StateBody.bytes b) = some b := by
  obtain ⟨rate, displayRows, width, frame, holder, many, claims⟩ := (StateBody.valid_iff b).mp valid
  have count : (BitVec.ofNat 8 b.claims.length).toNat = b.claims.length := byte_toNat (by omega)
  simp only [StateBody.bytes, frameBytes, List.cons_append, List.nil_append, readState, timeOf_code, floorOf_code, count,
    readClaims_bytes claims, byte_toNat rate, byte_toNat displayRows, byte_toNat width, frameOf_bytes frame,
    holderOf_byte holder, valid, if_true]

/-! ### The bodies of every kind -/

theorem readBody_cue (body : List Byte) : readBody 2 body = (readCue body).map .cue := rfl

theorem readBody_revise (body : List Byte) : readBody 3 body = (readCue body).map .revise := rfl

theorem readBody_state (body : List Byte) : readBody 7 body = (readState body).map .state := rfl

theorem readBody_body {k : Packet} (valid : Packet.valid k = true) :
    readBody (Packet.kindByte k) (Packet.body k) = some k := by
  cases k with
  | cut q off => exact congrArg (fun f => some (Packet.cut q f)) (frameOf_bytes valid)
  | cue b => exact (readBody_cue _).trans (congrArg (Option.map Packet.cue) (readCue_bytes valid))
  | revise b => exact (readBody_revise _).trans (congrArg (Option.map Packet.revise) (readCue_bytes valid))
  | take forced => exact congrArg (fun f => some (Packet.take f)) (take_bit forced)
  | yield q => exact congrArg (fun q => some (Packet.yield q)) (holderOf_byte valid)
  | item b i => exact congrArg (fun f => some (Packet.item f i)) (frameOf_bytes valid)
  | state b => exact (readBody_state _).trans (congrArg (Option.map Packet.state) (readState_bytes valid))

theorem flatten_length_le {l : List (List Byte)} {most : Nat} (each : ∀ r ∈ l, r.length ≤ most) :
    l.flatten.length ≤ l.length * most := by
  rw [List.length_flatten, ← List.length_map (f := List.length)]
  exact List.sum_le_card_nsmul _ _ fun k mem => by
    obtain ⟨r, listed, rfl⟩ := List.mem_map.mp mem
    exact each r listed

theorem cueBytes_length {b : CueBody} (valid : CueBody.valid b = true) : (CueBody.bytes b).length ≤ 99 := by
  obtain ⟨span, -, -, -, -, length, rows⟩ := (CueBody.valid_iff b).mp valid
  have few := ((spanValid_iff _ _).mp span).2.2
  have text := flatten_length_le fun r mem => ((rowValid_iff r).mp (rows r mem)).2
  simp only [CueBody.bytes, frameBytes, List.length_append, List.length_cons, List.length_nil]
  omega

theorem stateBytes_length {b : StateBody} (valid : StateBody.valid b = true) : (StateBody.bytes b).length ≤ 55 := by
  obtain ⟨-, -, -, -, -, many, -⟩ := (StateBody.valid_iff b).mp valid
  have listed : (b.claims.flatMap StateClaim.bytes).length ≤ b.claims.length * 11 := by
    rw [List.flatMap_def]
    refine (flatten_length_le (most := 11) fun r mem => ?_).trans_eq (by rw [List.length_map])
    obtain ⟨c, -, rfl⟩ := List.mem_map.mp mem
    exact Nat.le_of_eq rfl
  simp only [StateBody.bytes, frameBytes, List.length_append, List.length_cons, List.length_nil]
  omega

/-- The length byte holds the length of every body. -/
theorem body_length {k : Packet} (valid : Packet.valid k = true) : (Packet.body k).length < 256 := by
  cases k with
  | cue b => exact (cueBytes_length valid).trans_lt (by decide)
  | revise b => exact (cueBytes_length valid).trans_lt (by decide)
  | state b => exact (stateBytes_length valid).trans_lt (by decide)
  | cut | take | yield | item => simp [Packet.body, frameBytes]

/-! ### The packet -/

/-- Settles O60: the length byte parts the body from the CRC, which agrees, and the body is read field by field. -/
theorem packetBytesDecode : Obligations.PacketBytesDecode := by
  unfold Obligations.PacketBytesDecode
  intro p k valid
  obtain ⟨station, body⟩ : isStation p = true ∧ Packet.valid k = true := by simpa [packetValid] using valid
  obtain ⟨_, le⟩ := (isStation_iff p).mp station
  have sender : (BitVec.ofNat 8 p).toNat = p := byte_toNat (by omega)
  have length : (BitVec.ofNat 8 (Packet.body k).length).toNat = (Packet.body k).length := byte_toNat (body_length body)
  have line : Packet.bytes p k = syncByte :: BitVec.ofNat 8 p :: Packet.kindByte k :: BitVec.ofNat 8 (Packet.body k).length ::
      (Packet.body k ++ crcBytes (crc (Packet.content p k))) := rfl
  have whole : (Packet.body k).length + 2 ≤ (Packet.body k ++ crcBytes (crc (Packet.content p k))).length := by
    simp [crcBytes]
  have field : (crcBytes (crc (Packet.content p k))).take 2 = crcBytes (crc (Packet.content p k)) := rfl
  rw [line, decodeLine, length, if_pos ⟨rfl, whole⟩, List.take_left, List.drop_left, field, decodeComplete, sender,
    if_pos ⟨rfl, station⟩, readBody_body body]

end Sys2Proof.Machine
end
